-- ==== Sys2Proof/Word.lean ====
section
/-! DEFINITION. The two word types of the RDT-ARQ block: every register is 32 bits (rule R7), every stored byte 8 bits. -/

namespace Sys2Proof

/-- A register, an operand, a sequence number, a checksum: 32 unsigned bits (rules R7, R9). -/
abbrev Word := BitVec 32

/-- One byte of a byte string, of packet RAM or of the delivery FIFO (rule R10). -/
abbrev Byte := BitVec 8

end Sys2Proof
end

