-- ==== Sys2Proof/Config.lean ====
section
/-! DEFINITION. What one build of the block fixes: the synthesis-time parameters of rule R5, which the model takes as an argument,
and the two parameters rule R5 leaves OPEN. -/

namespace Sys2Proof

/-- The synthesis-time parameters of rule R5 that rules depend on. A value of this type is one build of the block. -/
structure Params where
  /-- TX_SLOTS: entries of the TRK table. -/
  txSlots : Nat
  /-- RX_SLOTS: slots of the RAB table. -/
  rxSlots : Nat
  /-- ACKQ_DEPTH: entries of the acknowledgment FIFO. -/
  ackqDepth : Nat
  /-- MSS_MAX: the largest payload, in bytes. -/
  mssMax : Nat
  /-- PRAM_BYTES: bytes of packet RAM. -/
  pramBytes : Nat
  /-- DLV_BYTES: bytes of the delivery FIFO. -/
  dlvBytes : Nat
  deriving DecidableEq, Repr

/-- The default column of rule R5. -/
def Params.default : Params :=
  { txSlots := 16, rxSlots := 16, ackqDepth := 16, mssMax := 1024, pramBytes := 16384, dlvBytes := 4096 }

/-- OPEN in rule R5: BLOCK_BASE divided by 128 KiB. No body: the platform chooses it (assumption 3). -/
opaque Config.blockBaseIndex : Nat

/-- OPEN in rule R5: TICK_PERIOD, in the platform's own unit of time. No body, and no rule depends on it (assumption 3). -/
opaque Config.tickPeriod : Nat

/-- BLOCK_BASE, 128 KiB aligned as rule R5 asks. -/
def Config.blockBase : Nat := 0x20000 * Config.blockBaseIndex

/-- The platform address of an offset of the aperture (rule R52). -/
def Config.platformAddress (offset : BitVec 17) : Nat := Config.blockBase + offset.toNat

/-- The real time that a number of ticks takes (rule R145). -/
def Config.realTime (ticks : Nat) : Nat := ticks * Config.tickPeriod

end Sys2Proof
end

