-- ==== Sys2Proof/Syntax.lean ====
section
/-! DEFINITION. The 17 commands of the opcode map (rule R76). A command word has no operand fields: a command takes its operands
from ARG0, ARG1 and ARG2 (rules R74, R75), so no constructor has an argument. -/

namespace Sys2Proof

/-- The commands, in the order of rule R76. -/
inductive Instr where
  /-- CK.CRC, rule R90 -/
  | ckCrc
  /-- CK.ENC, rule R91 -/
  | ckEnc
  /-- CK.DEC, rule R92 -/
  | ckDec
  /-- CK.VFY, rule R93 -/
  | ckVfy
  /-- TX.SEND, rule R97 -/
  | txSend
  /-- TX.ACK, rule R98 -/
  | txAck
  /-- TX.TICK, rule R102 -/
  | txTick
  /-- TX.RETX, rule R103 -/
  | txRetx
  /-- TX.QRY, rule R104 -/
  | txQry
  /-- TX.RST, rule R105 -/
  | txRst
  /-- RX.PUT, rule R114 -/
  | rxPut
  /-- RX.POP, rule R115 -/
  | rxPop
  /-- RX.ACKQ, rule R116 -/
  | rxAckq
  /-- RX.QRY, rule R117 -/
  | rxQry
  /-- RX.RST, rule R118 -/
  | rxRst
  /-- NOP, rule R128 -/
  | nop
  /-- SRST, rule R129 -/
  | srst
  deriving DecidableEq, Repr

end Sys2Proof
end

