-- ==== Sys2Proof/WellFormed.lean ====
section
/-! DEFINITION. Which terms are well formed: every command is (it has no operand field to be wrong), and a build of the block is
when its parameters lie in the ranges of rule R5 and meet rule R6. -/

namespace Sys2Proof

/-- Every one of the 17 commands is well formed: format C has no register numbers and no immediates (rule R74). -/
def Instr.wellFormed (_ : Instr) : Bool := true

/-- The legal ranges of rule R5, with the constraint DLV_BYTES >= MSS_MAX of rule R6. -/
def Params.legal (p : Params) : Bool :=
  decide (1 ≤ p.txSlots ∧ p.txSlots ≤ 255) &&
  decide (1 ≤ p.rxSlots ∧ p.rxSlots ≤ 255) &&
  decide (1 ≤ p.ackqDepth ∧ p.ackqDepth ≤ 255) &&
  decide (1 ≤ p.mssMax ∧ p.mssMax ≤ 65535) &&
  decide (16 ≤ p.pramBytes ∧ p.pramBytes ≤ 65536 ∧ p.pramBytes % 16 = 0) &&
  decide (p.mssMax ≤ p.dlvBytes ∧ p.dlvBytes ≤ 16777215)

end Sys2Proof
end

