-- ==== Sys2Proof/Decode.lean ====
section
/-! DEFINITION. The decoder of a command word, total on all 2^32 words and rejecting by name (rules R73, R74, R76, R77, R81), the
encoder, and the decoder in the numbering of the opcode table. -/

namespace Sys2Proof

/-- Why a word is illegal: the four cases of rule R77, in its order. -/
inductive Illegal where
  /-- RSV, bits [31:8], is not 0. -/
  | reservedBits
  /-- OP is 0x00. -/
  | opcodeZero
  /-- An unassigned function of an assigned unit. -/
  | unassignedFunction
  /-- An unassigned unit, 4 to 15. -/
  | unassignedUnit
  deriving DecidableEq, Repr

/-- What a command word decodes to (rule R81: exactly one of the 17 commands, or ILLEGAL). -/
inductive Decoded where
  | command (i : Instr)
  | illegal (why : Illegal)
  deriving DecidableEq, Repr

/-- RSV, bits [31:8] (rule R74). -/
def cmdRsv (w : Word) : BitVec 24 := w.extractLsb' 8 24

/-- UNIT, bits [7:4] (rule R74). -/
def cmdUnit (w : Word) : BitVec 4 := w.extractLsb' 4 4

/-- FN, bits [3:0] (rule R74). -/
def cmdFn (w : Word) : BitVec 4 := w.extractLsb' 0 4

/-- CKU, unit 0 (rule R76). -/
def decodeCku (fn : Nat) : Decoded :=
  match fn with
  | 0 => .illegal .opcodeZero
  | 1 => .command .ckCrc
  | 2 => .command .ckEnc
  | 3 => .command .ckDec
  | 4 => .command .ckVfy
  | _ => .illegal .unassignedFunction

/-- TRK, unit 1 (rule R76). -/
def decodeTrk (fn : Nat) : Decoded :=
  match fn with
  | 0 => .command .txSend
  | 1 => .command .txAck
  | 2 => .command .txTick
  | 3 => .command .txRetx
  | 4 => .command .txQry
  | 5 => .command .txRst
  | _ => .illegal .unassignedFunction

/-- RAB, unit 2 (rule R76). -/
def decodeRab (fn : Nat) : Decoded :=
  match fn with
  | 0 => .command .rxPut
  | 1 => .command .rxPop
  | 2 => .command .rxAckq
  | 3 => .command .rxQry
  | 4 => .command .rxRst
  | _ => .illegal .unassignedFunction

/-- CTL, unit 3 (rule R76). -/
def decodeCtl (fn : Nat) : Decoded :=
  match fn with
  | 0 => .command .nop
  | 1 => .command .srst
  | _ => .illegal .unassignedFunction

/-- The decode of a word depends on the word alone (rule R80); RSV is tested first (rule R78). -/
def decode (w : Word) : Decoded :=
  if cmdRsv w ≠ 0 then .illegal .reservedBits
  else
    match (cmdUnit w).toNat with
    | 0 => decodeCku (cmdFn w).toNat
    | 1 => decodeTrk (cmdFn w).toNat
    | 2 => decodeRab (cmdFn w).toNat
    | 3 => decodeCtl (cmdFn w).toNat
    | _ => .illegal .unassignedUnit

/-- The encoding of mnemonic M with opcode OP is the word 0x000000OP (rule R76). -/
def encode (i : Instr) : Word :=
  match i with
  | .ckCrc => 0x00000001
  | .ckEnc => 0x00000002
  | .ckDec => 0x00000003
  | .ckVfy => 0x00000004
  | .txSend => 0x00000010
  | .txAck => 0x00000011
  | .txTick => 0x00000012
  | .txRetx => 0x00000013
  | .txQry => 0x00000014
  | .txRst => 0x00000015
  | .rxPut => 0x00000020
  | .rxPop => 0x00000021
  | .rxAckq => 0x00000022
  | .rxQry => 0x00000023
  | .rxRst => 0x00000024
  | .nop => 0x00000030
  | .srst => 0x00000031

/-- A command word whose bits are `w`, bit 0 the least significant, and whose bits from `nbits` on are 0. -/
def tableWord (nbits w : Nat) : Word := BitVec.ofNat 32 (w % 2 ^ nbits)

/-- The command the decoder reads from an opcode-table row's bits; none where it refuses. -/
def decodeTableWord (nbits w : Nat) : Option Instr :=
  match decode (tableWord nbits w) with
  | .command i => some i
  | .illegal _ => none

end Sys2Proof
end

