-- ==== Sys2Proof/Machine/State.lean ====
section
/-! DEFINITION. The state of the block as plain data: every register, table, FIFO and the packet RAM of rule R19, with the values
of rule R51 after reset; the events on its ports (rule R50); and the reasons a step can stop. -/

namespace Sys2Proof.Machine

/-- The result codes of STATUS.CODE: exactly 15 values (rule R132). -/
inductive Code where
  | ok
  | empty
  | windowFull
  | framing
  | csumMismatch
  | duplicate
  | outOfRange
  | staleAck
  | ackqFull
  | txClosed
  | txFailed
  | seqExhausted
  | badAddr
  | badLen
  | illegalCmd
  deriving DecidableEq, Repr

/-- TRK.state (rule R41): OPEN, CLOSING, DONE, FAILED. -/
inductive TrkState where
  | txOpen
  | txClosing
  | txDone
  | txFailed
  deriving DecidableEq, Repr

/-- RAB.state (rule R44): AWAITING, BUFFERING, COMPLETE. -/
inductive RabState where
  | awaiting
  | buffering
  | complete
  deriving DecidableEq, Repr

/-- One entry of the TRK table, a PendingTransmission when valid (rule R40). -/
structure Entry where
  valid   : Bool
  seq     : Word
  addr    : BitVec 16
  len     : BitVec 17
  age     : BitVec 16
  retries : BitVec 16
  rq      : Bool
  sent    : Bool
  deriving DecidableEq, Repr

/-- All fields 0: an entry at reset, and an entry after it is retired (rules R40, R98). -/
def Entry.empty : Entry :=
  { valid := false, seq := 0, addr := 0, len := 0, age := 0, retries := 0, rq := false, sent := false }

/-- One slot of the RAB table (rule R43). `data` lists the slot's data bytes from byte 0 on, as far as an insertion has ever
written them; bytes no insertion has written have no value and no rule reads them (assumption 6). -/
structure Slot where
  valid : Bool
  seq   : Word
  len   : BitVec 16
  sent  : Bool
  data  : List Byte
  deriving DecidableEq, Repr

/-- A slot at power-on: valid, seq, len and sent 0, no data byte written (rule R43). -/
def Slot.empty : Slot :=
  { valid := false, seq := 0, len := 0, sent := false, data := [] }

/-- Packet RAM: the bytes written since power-on, addresses strictly rising. An unlisted offset holds an unspecified value
(rules R53, R54). -/
abbrev Memory := List Host.Cell

/-- The direction of a bus transaction (rule R55). -/
inductive Dir where
  | read
  | write
  deriving DecidableEq, Repr

/-- The size of a bus transaction: 1, 2 or 4 bytes (rule R55). -/
inductive Size where
  | byte
  | half
  | word
  deriving DecidableEq, Repr

/-- A host bus transaction `(dir, a, s, wdata)` on the 128 KiB aperture (rule R55). -/
structure BusReq where
  dir   : Dir
  addr  : BitVec 17
  size  : Size
  wdata : Word
  deriving DecidableEq, Repr

/-- The block's answer to a bus transaction: its error response and its read data (rules R50, R55, R57). -/
structure BusResp where
  error : Bool
  rdata : Word
  deriving DecidableEq, Repr

/-- One atomic step of an agent, or a pulse on rst_n, as it reaches the block's ports (rules R13, R50, R64). -/
inductive Event where
  /-- One bus transaction of HOST (rule R55). -/
  | host (r : BusReq)
  /-- One pulse on tick_i, a step of TICK (rule R101). -/
  | tick
  /-- rst_n asserted and released again (rule R151). -/
  | powerOn
  deriving DecidableEq, Repr

/-- The block, with what stands at its ports. -/
structure State where
  /-- The build's parameters: the model's argument of rule R5, which no step changes (assumption 1). -/
  params     : Params
  /-- ARG0, 0x01C (R21) -/
  arg0       : Word
  /-- ARG1, 0x020 (R21) -/
  arg1       : Word
  /-- ARG2, 0x024 (R21) -/
  arg2       : Word
  /-- RES0, 0x028 (R22) -/
  res0       : Word
  /-- RES1, 0x02C (R22) -/
  res1       : Word
  /-- RES2, 0x030 (R22) -/
  res2       : Word
  /-- STATUS.CODE, 0x018 bits [7:0] (R24, R25) -/
  code       : Code
  /-- WIN[7:0], 0x034 (R31) -/
  win        : BitVec 8
  /-- TIMEOUT[15:0], 0x038 (R32) -/
  timeout    : BitVec 16
  /-- RETRY[15:0], 0x03C (R33) -/
  retry      : BitVec 16
  /-- MSS[15:0], 0x040 (R34) -/
  mss        : BitVec 16
  /-- SENTLEN[3:0], 0x044 (R35) -/
  sentLen    : BitVec 4
  /-- SENT0, 0x048 (R35) -/
  sent0      : Word
  /-- SENT1, 0x04C (R35) -/
  sent1      : Word
  /-- IRQ_STATUS[7:0], 0x050 (R49) -/
  irqStatus  : BitVec 8
  /-- IRQ_ENABLE[7:0], 0x054 (R49) -/
  irqEnable  : BitVec 8
  /-- NEXT_SEQ, 0x058 (R36) -/
  nextSeq    : Word
  /-- EXP_SEQ, 0x05C (R37) -/
  expSeq     : Word
  /-- FAIL_SEQ, 0x060 (R38) -/
  failSeq    : Word
  /-- TIME, 0x064 (R39) -/
  time       : Word
  /-- RX_BYTES, 0x070 (R47) -/
  rxBytes    : Word
  /-- CNT_FRAMING, 0x074 (R48) -/
  cntFraming : Word
  /-- CNT_CSUM, 0x078 (R48) -/
  cntCsum    : Word
  /-- CNT_DUP, 0x07C (R48) -/
  cntDup     : Word
  /-- CNT_RANGE, 0x080 (R48) -/
  cntRange   : Word
  /-- CNT_RETX, 0x084 (R48) -/
  cntRetx    : Word
  /-- TRK.state, STATUS.TX_STATE (R41) -/
  trkState   : TrkState
  /-- TRK.E[0..TX_SLOTS-1] (R40) -/
  trk        : List Entry
  /-- RAB.state, STATUS.RX_STATE (R44) -/
  rabState   : RabState
  /-- RAB.S[0..RX_SLOTS-1] (R43) -/
  slots      : List Slot
  /-- DLV, head first (R45) -/
  dlv        : List Byte
  /-- ACKQ, head first (R46) -/
  ackq       : List Word
  /-- PRAM (R53) -/
  pram       : Memory
  /-- What still arrives at the ports, in the total order of rule R67: the host program and the tick times of rule R19
  (assumption 2). -/
  agenda     : List Event
  /-- The bus port's answer to the latest transaction; none before the first (assumption 2). -/
  resp       : Option BusResp
  deriving DecidableEq, Repr

/-- Reasons the model stops because the state is none the block can be in. -/
inductive Fault where
  /-- TX.SEND finds TX_COUNT < WIN and yet no entry with valid = 0. Rule R95 says such an entry exists; it does in every state
  that meets `BlockInv`. Raised by TX.SEND. Safe: the model stops where the spec gives no entry to record into (assumption 7). -/
  | noFreeEntry
  deriving DecidableEq, Repr

/-- Reasons the model has no meaning for a case. -/
inductive Refusal where
  /-- An instruction the model gives no meaning yet; no arm of `exec` answers with it. Safe. -/
  | notModelled (mnemonic : String)
  /-- A host read or a command's MemRead of a packet-RAM byte that no write has given a value since power-on (rules R14, R54).
  Raised by every reader of packet RAM. Safe: the spec itself names this a refusal. -/
  | unwrittenPram
  /-- A build whose parameters leave the ranges of rule R5 or break rule R6 (rule R14). Raised by `step`. Safe. -/
  | illegalConfig
  deriving DecidableEq, Repr

/-- What a command, a transaction or a step answers. -/
abbrev Result := Host.Outcome State Fault Refusal

/-- The block of build `p` after power-on reset: the values of rule R51, packet RAM with no byte written (rule R54), and nothing
yet at its ports. -/
def State.resetOf (p : Params) : State :=
  { params := p
    arg0 := 0, arg1 := 0, arg2 := 0
    res0 := 0, res1 := 0, res2 := 0
    code := .ok
    win := 1, timeout := 16, retry := 0, mss := BitVec.ofNat 16 p.mssMax
    sentLen := 0, sent0 := 0, sent1 := 0
    irqStatus := 0, irqEnable := 0
    nextSeq := 0, expSeq := 0, failSeq := 0, time := 0
    rxBytes := 0, cntFraming := 0, cntCsum := 0, cntDup := 0, cntRange := 0, cntRetx := 0
    trkState := .txOpen
    trk := List.replicate p.txSlots Entry.empty
    rabState := .awaiting
    slots := List.replicate p.rxSlots Slot.empty
    dlv := [], ackq := []
    pram := []
    agenda := []
    resp := none }

/-- The block right after reset, built with the defaults of rule R5 (assumption 1). -/
def State.reset : State := State.resetOf Params.default

end Sys2Proof.Machine
end

