-- ==== Sys2Proof/Machine/Flags.lean ====
section
/-! DEFINITION. The block's only condition code, STATUS.CODE, with its numbers and classes (rules R25, R132, R133); the sticky
interrupt bits and irq_o (rules R49, R140 to R142); the derived counts and the STATUS word (rules R24, R26). -/

namespace Sys2Proof.Machine

/-- The number of a result code (rule R132). -/
def Code.number (c : Code) : BitVec 8 :=
  match c with
  | .ok => 0x00
  | .empty => 0x01
  | .windowFull => 0x02
  | .framing => 0x03
  | .csumMismatch => 0x04
  | .duplicate => 0x05
  | .outOfRange => 0x06
  | .staleAck => 0x07
  | .ackqFull => 0x08
  | .txClosed => 0x09
  | .txFailed => 0x0A
  | .seqExhausted => 0x0B
  | .badAddr => 0x0C
  | .badLen => 0x0D
  | .illegalCmd => 0x0E

/-- Class H, a host programming error: the codes that raise CMD_ERR (rules R131, R133). -/
def Code.hostError (c : Code) : Bool :=
  match c with
  | .badAddr => true
  | .badLen => true
  | .illegalCmd => true
  | .ok => false
  | .empty => false
  | .windowFull => false
  | .framing => false
  | .csumMismatch => false
  | .duplicate => false
  | .outOfRange => false
  | .staleAck => false
  | .ackqFull => false
  | .txClosed => false
  | .txFailed => false
  | .seqExhausted => false

/-- The bits of IRQ_STATUS and IRQ_ENABLE (rule R49). -/
inductive IrqBit where
  | dlvAvail
  | ackqAvail
  | retxReq
  | slotFree
  | txDone
  | txFailed
  | rxComplete
  | cmdErr
  deriving DecidableEq, Repr

/-- The place of an interrupt bit (rule R49). -/
def IrqBit.mask (b : IrqBit) : BitVec 8 :=
  match b with
  | .dlvAvail => 0x01
  | .ackqAvail => 0x02
  | .retxReq => 0x04
  | .slotFree => 0x08
  | .txDone => 0x10
  | .txFailed => 0x20
  | .rxComplete => 0x40
  | .cmdErr => 0x80

/-- `irq(BIT)`: the bit becomes 1 and stays 1 (rule R141). -/
def State.irq (b : IrqBit) (s : State) : State :=
  { s with irqStatus := s.irqStatus ||| b.mask }

/-- The level output irq_o (rules R50, R142). -/
def State.irqO (s : State) : Bool := s.irqStatus &&& s.irqEnable != 0

/-- TX_COUNT: entries with valid = 1, recomputed at every read (rule R26). -/
def State.txCount (s : State) : Nat := s.trk.countP (·.valid)

/-- RX_COUNT: slots with valid = 1, recomputed at every read (rule R26). -/
def State.rxCount (s : State) : Nat := s.slots.countP (·.valid)

/-- The value of STATUS.TX_STATE (rules R24, R41). -/
def TrkState.number (t : TrkState) : BitVec 2 :=
  match t with
  | .txOpen => 0
  | .txClosing => 1
  | .txDone => 2
  | .txFailed => 3

/-- The value of STATUS.RX_STATE (rules R24, R44). -/
def RabState.number (r : RabState) : BitVec 2 :=
  match r with
  | .awaiting => 0
  | .buffering => 1
  | .complete => 2

/-- STATUS as the host reads it: RX_COUNT, TX_COUNT, four zero bits, TX_STATE, RX_STATE, CODE (rule R24). -/
def State.statusWord (s : State) : Word :=
  BitVec.ofNat 8 s.rxCount ++ BitVec.ofNat 8 s.txCount ++ 0#4 ++ s.trkState.number ++ s.rabState.number ++ s.code.number

end Sys2Proof.Machine
end

