-- ==== Sys2Proof/Machine/Ops.lean ====
section
/-! DEFINITION. The shared operations: packet RAM byte by byte and as byte strings, MemRead and MemWrite (rules R11, R53, R54);
the two byte orders (rules R58, R60); the common prologue (rule R78) and `finish`, the block's one form of an exception
(rules R131, R137). There is no trap entry that saves state and no return from one (rules R137, R138). -/

namespace Sys2Proof.Machine

/-- The canonical form of packet RAM: offsets strictly rising. An unlisted offset has no value, so no listed byte equals it. -/
def Memory.wf (m : Memory) : Bool :=
  match m with
  | [] => true
  | [_] => true
  | a :: b :: rest => decide (a.1 < b.1) && Memory.wf (b :: rest)

/-- The byte at an offset; none where no write has given it a value since power-on (rule R54). -/
def Memory.read? (m : Memory) (a : Nat) : Option Byte :=
  match m with
  | [] => none
  | c :: rest => if c.1 = a then some c.2 else Memory.read? rest a

/-- One byte written at an offset, in canonical form. -/
def Memory.write (m : Memory) (a : Nat) (b : Byte) : Memory :=
  match m with
  | [] => [(a, b)]
  | c :: rest =>
    if a < c.1 then (a, b) :: c :: rest
    else if c.1 = a then (a, b) :: rest
    else c :: Memory.write rest a b

/-- The n bytes from an offset on; none where one of them has no value. -/
def Memory.readBytes (m : Memory) (a n : Nat) : Option (List Byte) :=
  match n with
  | 0 => some []
  | k + 1 =>
    match m.read? a with
    | none => none
    | some b =>
      match Memory.readBytes m (a + 1) k with
      | none => none
      | some bs => some (b :: bs)

/-- A byte string written from an offset on (MemWrite of rule R11). -/
def Memory.writeBytes (m : Memory) (a : Nat) (bs : List Byte) : Memory :=
  match bs with
  | [] => m
  | b :: rest => Memory.writeBytes (m.write a b) (a + 1) rest

/-- `bytesBE32(v)`: most significant byte first, the wire's order (rules R10, R60). -/
def bytesBE32 (v : Word) : List Byte :=
  [v.extractLsb' 24 8, v.extractLsb' 16 8, v.extractLsb' 8 8, v.extractLsb' 0 8]

/-- `BE32(b)` of a 4-byte string (rule R10). -/
def wordBE32 (b : List Byte) : Word :=
  b.foldl (fun acc x => (acc <<< 8) ||| x.zeroExtend 32) 0

/-- The lanes of a bus read: byte k of the string in bits [8k+7:8k], the bits above 0 (rule R58). -/
def wordOfLanes (b : List Byte) : Word :=
  match b with
  | [] => 0
  | x :: rest => x.zeroExtend 32 ||| (wordOfLanes rest <<< 8)

/-- The lanes of a bus write: the low n bytes of wdata, bits [7:0] first (rule R58). -/
def lanesOfWord (v : Word) (n : Nat) : List Byte :=
  match n with
  | 0 => []
  | k + 1 => v.extractLsb' 0 8 :: lanesOfWord (v >>> 8) k

/-- `MemRead(addr, n)` and what follows it; a byte without a value is a refusal (rules R11, R54). -/
def State.memRead (s : State) (a n : Nat) (k : List Byte → Result) : Result :=
  match s.pram.readBytes a n with
  | none => .refused .unwrittenPram
  | some d => k d

/-- `MemWrite(addr, n, v)` of an n-byte string (rule R11). -/
def State.memWrite (s : State) (a : Nat) (bs : List Byte) : State :=
  { s with pram := s.pram.writeBytes a bs }

/-- `InRange(addr, n)`, on unbounded integers (rule R11). -/
def State.inRange (s : State) (a n : Nat) : Bool := decide (a + n ≤ s.params.pramBytes)

/-- The common prologue: RES0, RES1 and RES2 become 0 (rule R78). -/
def State.prologue (s : State) : State := { s with res0 := 0, res1 := 0, res2 := 0 }

/-- The result registers a command's rule names. -/
def State.setRes (s : State) (r0 r1 r2 : Word) : State := { s with res0 := r0, res1 := r1, res2 := r2 }

/-- The state `finish(CODE)` leaves: STATUS.CODE written, and CMD_ERR raised for a class H code (rule R131). -/
def State.complete (c : Code) (s : State) : State :=
  { s with
    code := c
    irqStatus := if c.hostError then s.irqStatus ||| IrqBit.cmdErr.mask else s.irqStatus }

/-- `finish(CODE)`: the command ends normally with this code (rules R79, R131). -/
def finish (c : Code) (s : State) : Result := .next (s.complete c)

/-- A word no command has: the prologue, then ILLEGAL_CMD (rules R77, R78). -/
def execIllegal (s : State) : Result := finish .illegalCmd s.prologue

end Sys2Proof.Machine
end

