-- ==== Sys2Proof/Machine/Operands.lean ====
section
/-! DEFINITION. The operands of a command: which of ARG0, ARG1 and ARG2 it takes and in what role (rule R75), and the sentinel
value the configuration registers hold (rule R35). -/

namespace Sys2Proof.Machine

/-- The role of an operand, and with it its register: a sequence number is in ARG0, a packet-RAM offset in ARG1, a byte length in
ARG2 (rule R75). -/
inductive Operand where
  | seq
  | base
  | len
  deriving DecidableEq, Repr

/-- The operands a command takes, in the order ARG0, ARG1, ARG2; it ignores the other registers (the table of rule R75). -/
def operandsOf (i : Instr) : List Operand :=
  match i with
  | .ckCrc => [.base, .len]
  | .ckEnc => [.seq, .base, .len]
  | .ckDec => [.base, .len]
  | .ckVfy => [.base, .len]
  | .txSend => [.base, .len]
  | .txAck => [.base, .len]
  | .txTick => []
  | .txRetx => []
  | .txQry => [.seq]
  | .txRst => []
  | .rxPut => [.base, .len]
  | .rxPop => []
  | .rxAckq => [.base]
  | .rxQry => [.seq]
  | .rxRst => []
  | .nop => []
  | .srst => []

/-- The sequence-number operand (rule R75). -/
def State.seqArg (s : State) : Word := s.arg0

/-- The packet-RAM offset operand, unsigned and unscaled (rule R75). -/
def State.baseArg (s : State) : Nat := s.arg1.toNat

/-- The byte-length operand, unsigned and unscaled (rule R75). -/
def State.lenArg (s : State) : Nat := s.arg2.toNat

/-- The sentinel string SENT: byte i is the i-th byte of SENT0 then SENT1, most significant first, cut to SENTLEN (rule R35). -/
def State.sentinel (s : State) : List Byte := (bytesBE32 s.sent0 ++ bytesBE32 s.sent1).take s.sentLen.toNat

/-- `IsSentinel(b)` (rule R35). -/
def State.isSentinel (s : State) (b : List Byte) : Bool := b == s.sentinel

end Sys2Proof.Machine
end

