-- ==== Sys2Proof/Machine/Cku.lean ====
section
/-! DEFINITION. The checksum and codec unit: CRC-32, the packet digest, the wire format and its validity (rules R85 to R88), and
the commands CK.CRC, CK.ENC, CK.DEC and CK.VFY (rules R90 to R93). -/

namespace Sys2Proof.Machine

/-- One of the 8 shifts of a byte in rule R85. -/
def crcShift (c : Word) : Word := if c.getLsbD 0 then (c >>> 1) ^^^ 0xEDB88320 else c >>> 1

/-- The register after one byte, least significant bit first (rule R85). -/
def crcByte (c : Word) (b : Byte) : Word :=
  crcShift (crcShift (crcShift (crcShift (crcShift (crcShift (crcShift (crcShift (c ^^^ b.zeroExtend 32))))))))

/-- `CRC32(b)` (rule R85). -/
def crc32 (b : List Byte) : Word := b.foldl crcByte 0xFFFFFFFF ^^^ 0xFFFFFFFF

/-- `Digest(seq, p)` (rule R86). -/
def digest (seq : Word) (p : List Byte) : Word := crc32 (bytesBE32 seq ++ p)

/-- `Encode(seq, p)` (rule R87). -/
def encodePacket (seq : Word) (p : List Byte) : List Byte := bytesBE32 seq ++ bytesBE32 (digest seq p) ++ p

/-- A parsed datagram (rule R88). -/
structure Packet where
  seq     : Word
  csum    : Word
  payload : List Byte
  deriving DecidableEq, Repr

/-- The header and payload of a datagram of at least 8 bytes (rule R88). -/
def parsePacket (d : List Byte) : Packet :=
  { seq := wordBE32 (d.take 4), csum := wordBE32 ((d.drop 4).take 4), payload := d.drop 8 }

/-- `Decode(d)`: none is CorruptFraming (rule R88). -/
def decodePacket (d : List Byte) : Option Packet := if d.length < 8 then none else some (parsePacket d)

/-- `Valid(P)`, all 32 bits compared (rule R88). -/
def Packet.isValid (p : Packet) : Bool := digest p.seq p.payload == p.csum

/-- `Valid(Decode(d))`, false for a datagram that does not decode (rules R88, R89). -/
def datagramValid (d : List Byte) : Bool :=
  match decodePacket d with
  | none => false
  | some p => p.isValid

/-- The header of a packet written in place: the sequence number, then the checksum, each big-endian (rules R60, R91, R97). -/
def State.writeHeader (s : State) (base : Nat) (seq csum : Word) : State :=
  (s.memWrite base (bytesBE32 seq)).memWrite (base + 4) (bytesBE32 csum)

/-- CK.CRC: the CRC of a packet-RAM range (rule R90). -/
def execCkCrc (s : State) : Result :=
  let s := s.prologue
  if s.inRange s.baseArg s.lenArg then
    s.memRead s.baseArg s.lenArg fun d => finish .ok (s.setRes (crc32 d) 0 0)
  else finish .badAddr s

/-- CK.ENC: a data-packet header encoded in place (rule R91). -/
def execCkEnc (s : State) : Result :=
  let s := s.prologue
  let n := s.lenArg
  if s.mss.toNat < n then finish .badLen s
  else if s.inRange s.baseArg (8 + n) then
    s.memRead (s.baseArg + 8) n fun p =>
      let c := digest s.seqArg p
      finish .ok ((s.writeHeader s.baseArg s.seqArg c).setRes c (BitVec.ofNat 32 (8 + n)) 0)
  else finish .badAddr s

/-- CK.DEC: a datagram's header parsed, not verified; only its 8 header bytes are read (rules R62, R92). -/
def execCkDec (s : State) : Result :=
  let s := s.prologue
  let n := s.lenArg
  if s.inRange s.baseArg n then
    if n < 8 then finish .framing s
    else
      s.memRead s.baseArg 8 fun h =>
        let p := parsePacket h
        finish .ok (s.setRes p.seq p.csum (BitVec.ofNat 32 (n - 8)))
  else finish .badAddr s

/-- CK.VFY: a datagram parsed and verified (rule R93). -/
def execCkVfy (s : State) : Result :=
  let s := s.prologue
  let n := s.lenArg
  if s.inRange s.baseArg n then
    if n < 8 then finish .framing s
    else
      s.memRead s.baseArg n fun d =>
        let p := parsePacket d
        let c := digest p.seq p.payload
        if p.isValid then finish .ok (s.setRes 1 c p.seq)
        else finish .csumMismatch (s.setRes 0 c p.seq)
  else finish .badAddr s

end Sys2Proof.Machine
end

