-- ==== Sys2Proof/Machine/Rab.lean ====
section
/-! DEFINITION. The reassembly buffer: the delivery loop (rule R113), the acceptance of a valid datagram (rules R111, R112), and
the commands RX.PUT, RX.POP, RX.ACKQ, RX.QRY and RX.RST (rules R114 to R118). -/

namespace Sys2Proof.Machine

/-- Slot j of the RAB table. -/
def State.slot (s : State) (j : Nat) : Slot := s.slots.getD j Slot.empty

/-- The slot index of a sequence number, seq mod RX_SLOTS (rule R111). -/
def State.slotIndex (s : State) (seq : Word) : Nat := seq.toNat % s.params.rxSlots

/-- valid, seq, len and sent become 0; the data bytes are not touched (rules R113, R118, R51). -/
def Slot.clear (x : Slot) : Slot := { x with valid := false, seq := 0, len := 0, sent := false }

/-- The slot after an insertion: `data[0..len(p)) <- p`, the bytes beyond as they were (rule R114). -/
def Slot.insert (x : Slot) (seq : Word) (p : List Byte) (sent : Bool) : Slot :=
  { valid := true, seq := seq, len := BitVec.ofNat 16 p.length, sent := sent, data := p ++ x.data.drop p.length }

/-- The payload a valid slot holds: data[0..len) (rules R43, R113). -/
def Slot.payload (x : Slot) : List Byte := x.data.take x.len.toNat

/-- The slot at the cursor is consumed: cleared, and EXP_SEQ one further (rule R113). -/
def State.consume (s : State) : State :=
  { s with
    slots := s.slots.set (s.slotIndex s.expSeq) (s.slot (s.slotIndex s.expSeq)).clear
    expSeq := s.expSeq + 1 }

/-- One turn of the delivery loop; none where the loop ends (rule R113). The turn that consumes the sentinel enters COMPLETE, in
which the loop's condition fails. -/
def State.drainOne (s : State) : Option State :=
  let x := s.slot (s.slotIndex s.expSeq)
  if s.rabState = .buffering ∧ x.valid = true ∧ x.seq = s.expSeq then
    if x.sent then some (State.irq .rxComplete { s.consume with rabState := .complete })
    else if s.params.dlvBytes < s.dlv.length + x.len.toNat then none
    else
      some
        { s.consume with
          dlv := s.dlv ++ x.payload
          rxBytes := s.rxBytes + x.len.zeroExtend 32
          irqStatus := if x.len = 0 then s.irqStatus else s.irqStatus ||| IrqBit.dlvAvail.mask }
  else none

/-- At most `fuel` turns of the delivery loop, and how many slots they consumed. -/
def State.drainFrom (fuel : Nat) (s : State) : State × Nat :=
  match fuel with
  | 0 => (s, 0)
  | f + 1 =>
    match s.drainOne with
    | none => (s, 0)
    | some t => ((State.drainFrom f t).1, (State.drainFrom f t).2 + 1)

/-- `Drain()` (rule R113). Every turn consumes a valid slot, so as many turns as there are slots reach the loop's end. -/
def State.drain (s : State) : State × Nat := s.drainFrom s.slots.length

/-- A valid datagram enters a slot iff the transfer is not COMPLETE, it is not late, and its slot is free (rules R112, R114). -/
def State.inserts (s : State) (seq : Word) : Bool :=
  decide (s.rabState ≠ .complete ∧ ¬ seq.toNat < s.expSeq.toNat ∧ (s.slot (s.slotIndex seq)).valid = false)

/-- Ahead of the receive range, hence dropped without an acknowledgment (rules R111, R112). -/
def State.ahead (s : State) (seq : Word) : Bool :=
  decide (seq = 0xFFFFFFFF ∨ (s.rabState ≠ .complete ∧ s.expSeq.toNat + s.params.rxSlots ≤ seq.toNat))

/-- AWAITING becomes BUFFERING on the first valid datagram (rule R110). -/
def State.heard (s : State) : State :=
  { s with rabState := if s.rabState = .awaiting then .buffering else s.rabState }

/-- The acknowledgment of a valid datagram pushed onto ACKQ (rules R112, R114). -/
def State.pushAck (s : State) (seq : Word) : State :=
  State.irq .ackqAvail { s with ackq := s.ackq ++ [seq] }

/-- The datagram stored in its slot, or counted as a duplicate (rule R114). -/
def State.store (s : State) (seq : Word) (p : List Byte) : State :=
  if s.inserts seq then
    { s with slots := s.slots.set (s.slotIndex seq) ((s.slot (s.slotIndex seq)).insert seq p (s.isSentinel p)) }
  else { s with cntDup := s.cntDup + 1 }

/-- RES2 of RX.PUT: bit 0 acked, bit 1 inserted, bit 2 the sentinel, bits [15:8] the slots drained (rule R114). -/
def putFlags (acked inserted sentinel : Bool) (k : Nat) : Word :=
  (if acked then 1 else 0) + (if inserted then 2 else 0) + (if sentinel then 4 else 0) + 256 * BitVec.ofNat 32 k

/-- RX.PUT from the point where the checksum matched (rule R114); RES0 and RES1 are already written. -/
def State.acceptDatagram (s : State) (seq : Word) (p : List Byte) : Result :=
  let s := s.heard
  if s.ahead seq then
    finish .outOfRange { s with cntRange := s.cntRange + 1, res2 := putFlags false false (s.isSentinel p) 0 }
  else
    let t := ((s.pushAck seq).store seq p).drain
    finish (if s.inserts seq then .ok else .duplicate)
      { t.1 with res2 := putFlags true (s.inserts seq) (s.isSentinel p) t.2 }

/-- RX.PUT from the point where the datagram's bytes are read (rule R114). -/
def State.putDatagram (s : State) (d : List Byte) : Result :=
  let pkt := parsePacket d
  let s := s.setRes pkt.seq (BitVec.ofNat 32 (s.lenArg - 8)) 0
  if s.mss.toNat < s.lenArg - 8 then finish .framing { s with cntFraming := s.cntFraming + 1 }
  else if pkt.isValid then s.acceptDatagram pkt.seq pkt.payload
  else finish .csumMismatch { s with cntCsum := s.cntCsum + 1 }

/-- RX.PUT: a datagram arrives (rule R114). -/
def execRxPut (s : State) : Result :=
  let s := s.prologue
  if s.inRange s.baseArg s.lenArg then
    if s.ackq.length = s.params.ackqDepth then finish .ackqFull s
    else if s.lenArg < 8 then finish .framing { s with cntFraming := s.cntFraming + 1 }
    else s.memRead s.baseArg s.lenArg fun d => s.putDatagram d
  else finish .badAddr s

/-- RX.POP: deliver one byte to the application (rule R115). -/
def execRxPop (s : State) : Result :=
  let s := s.prologue
  match s.dlv with
  | [] => finish .empty s
  | b :: rest =>
    let t := { s with dlv := rest }.drain
    finish .ok (t.1.setRes (b.zeroExtend 32) 1 (BitVec.ofNat 32 t.2))

/-- RX.ACKQ: emit one acknowledgment datagram (rule R116). -/
def execRxAckq (s : State) : Result :=
  let s := s.prologue
  if s.inRange s.baseArg 4 then
    match s.ackq with
    | [] => finish .empty s
    | seq :: rest => finish .ok (({ s with ackq := rest }.memWrite s.baseArg (bytesBE32 seq)).setRes seq 4 0)
  else finish .badAddr s

/-- RX.QRY: look up a sequence number in the slot table (rule R117). -/
def execRxQry (s : State) : Result :=
  let s := s.prologue
  let x := s.slot (s.slotIndex s.seqArg)
  if x.valid = true ∧ x.seq = s.seqArg then
    finish .ok (s.setRes 1 (x.len.zeroExtend 32) (if x.sent then 1 else 0))
  else finish .ok s

/-- The receiver's half of the block as RX.RST leaves it (rules R118, R154). -/
def State.resetRab (s : State) : State :=
  { s with
    slots := s.slots.map Slot.clear
    rabState := .awaiting
    expSeq := 0
    rxBytes := 0
    dlv := []
    ackq := []
    cntFraming := 0
    cntCsum := 0
    cntDup := 0
    cntRange := 0 }

/-- RX.RST: start a new receive transfer (rule R118). -/
def execRxRst (s : State) : Result := finish .ok s.prologue.resetRab

end Sys2Proof.Machine
end

