-- ==== Sys2Proof/Machine/Trk.lean ====
section
/-! DEFINITION. The acknowledgment tracker: the tick step with aging, expiry and exhaustion (rules R99, R100), and the commands
TX.SEND, TX.ACK, TX.TICK, TX.RETX, TX.QRY and TX.RST (rules R97, R98, R102 to R105). -/

namespace Sys2Proof.Machine

/-- The lowest of a first sequence number and the others, unsigned (rules R38, R99, R103). -/
def lowestSeq (m : Word) (xs : List Word) : Word :=
  match xs with
  | [] => m
  | x :: rest => lowestSeq (if x.toNat < m.toNat then x else m) rest

/-- `min(v + 1, 0xFFFF)` (rule R99). -/
def saturatingInc (v : BitVec 16) : BitVec 16 := BitVec.ofNat 16 (min (v.toNat + 1) 0xFFFF)

/-- The entry is pending for this sequence number (rules R98, R104). -/
def Entry.holds (seq : Word) (e : Entry) : Bool := e.valid && e.seq == seq

/-- A retransmission request is outstanding (rule R103). -/
def Entry.requested (e : Entry) : Bool := e.valid && e.rq

/-- In this tick the entry's age reaches TIMEOUT (rule R99). -/
def Entry.expires (timeout : BitVec 16) (e : Entry) : Bool :=
  e.valid && decide (timeout.toNat ≤ (saturatingInc e.age).toNat)

/-- The entry has used up its retransmissions: RETRY is not 0 and retries has reached it (rules R99, R100). -/
def Entry.atCeiling (retry : BitVec 16) (e : Entry) : Bool :=
  retry != 0 && decide (retry.toNat ≤ e.retries.toNat)

/-- In this tick the entry is exhausted (rule R99). -/
def Entry.exhausts (timeout retry : BitVec 16) (e : Entry) : Bool := e.expires timeout && e.atCeiling retry

/-- In this tick the entry raises a retransmission request (rule R99). -/
def Entry.raises (timeout retry : BitVec 16) (e : Entry) : Bool := e.expires timeout && !e.atCeiling retry

/-- The entry after a tick: aged; re-armed with its request raised if it expired below the ceiling; its other fields left as they
are if it is exhausted (rule R99). -/
def Entry.tick (timeout retry : BitVec 16) (e : Entry) : Entry :=
  if e.raises timeout retry then { e with retries := saturatingInc e.retries, age := 0, rq := true }
  else if e.valid then { e with age := saturatingInc e.age }
  else e

/-- Timers run in OPEN and CLOSING only (rules R99, R100). -/
def State.timersRun (s : State) : Bool :=
  match s.trkState with
  | .txOpen => true
  | .txClosing => true
  | .txDone => false
  | .txFailed => false

/-- r of rule R99: the retransmission requests a tick raises. -/
def State.tickRaised (s : State) : Nat :=
  if s.timersRun then s.trk.countP (·.raises s.timeout s.retry) else 0

/-- X of rule R99: the sequence numbers a tick exhausts, in table order. -/
def State.tickExhausted (s : State) : List Word :=
  if s.timersRun then (s.trk.filter (·.exhausts s.timeout s.retry)).map (·.seq) else []

/-- TIME advances, every valid entry ages, and the requests are counted and signalled (the scan of rule R99). -/
def State.tickScan (s : State) : State :=
  { s with
    time := s.time + 1
    trk := if s.timersRun then s.trk.map (·.tick s.timeout s.retry) else s.trk
    cntRetx := s.cntRetx + BitVec.ofNat 32 s.tickRaised
    irqStatus := if s.tickRaised = 0 then s.irqStatus else s.irqStatus ||| IrqBit.retxReq.mask }

/-- `TickStep()`: the scan, then FAILED with the lowest exhausted sequence number if any entry was exhausted (rules R99, R100). -/
def State.tickStep (s : State) : State :=
  match s.tickExhausted with
  | [] => s.tickScan
  | x :: xs => State.irq .txFailed { s.tickScan with trkState := .txFailed, failSeq := lowestSeq x xs }

/-- The lowest i with TRK.E[i].valid = 0 (rule R95). -/
def freeEntry (t : List Entry) : Option Nat := t.findIdx? (!·.valid)

/-- The entry a successful TX.SEND records (rule R97). -/
def newEntry (seq : Word) (base n : Nat) (sent : Bool) : Entry :=
  { valid := true, seq := seq, addr := BitVec.ofNat 16 base, len := BitVec.ofNat 17 (8 + n)
    age := 0, retries := 0, rq := false, sent := sent }

/-- What a successful TX.SEND of payload p into entry i does (rules R96, R97). -/
def State.sendPacket (s : State) (i : Nat) (p : List Byte) : State :=
  let seq := s.nextSeq
  let c := digest seq p
  let n := s.lenArg
  let t := s.writeHeader s.baseArg seq c
  { t with
    trk := s.trk.set i (newEntry seq s.baseArg n (s.isSentinel p))
    nextSeq := seq + 1
    trkState := if s.isSentinel p then .txClosing else s.trkState
    res0 := seq
    res1 := BitVec.ofNat 32 (8 + n)
    res2 := c }

/-- The part of TX.SEND after the state checks of rule R97. -/
def State.sendOpen (s : State) : Result :=
  if s.mss.toNat < s.lenArg then finish .badLen s
  else if s.inRange s.baseArg (8 + s.lenArg) then
    if s.nextSeq = 0xFFFFFFFF then finish .seqExhausted s
    else if s.win.toNat ≤ s.txCount then finish .windowFull s
    else
      s.memRead (s.baseArg + 8) s.lenArg fun p =>
        match freeEntry s.trk with
        | none => .fault .noFreeEntry
        | some i => finish .ok (s.sendPacket i p)
  else finish .badAddr s

/-- TX.SEND: assign, encode, arm the timer, record (rule R97). -/
def execTxSend (s : State) : Result :=
  let s := s.prologue
  match s.trkState with
  | .txFailed => finish .txFailed s
  | .txClosing => finish .txClosed s
  | .txDone => finish .txClosed s
  | .txOpen => s.sendOpen

/-- What the acknowledgment of entry i does: the entry cleared, SLOT_FREE raised, and DONE if it was the last one in CLOSING
(rules R94, R98). -/
def State.retire (s : State) (i : Nat) : State :=
  let t := State.irq .slotFree { s with trk := s.trk.set i Entry.empty }
  if t.trkState = .txClosing ∧ t.txCount = 0 then State.irq .txDone { t with trkState := .txDone } else t

/-- TX.ACK: an acknowledgment arrives (rule R98). -/
def execTxAck (s : State) : Result :=
  let s := s.prologue
  if s.inRange s.baseArg s.lenArg then
    if s.lenArg = 4 then
      s.memRead s.baseArg 4 fun d =>
        let seq := wordBE32 d
        match s.trk.findIdx? (·.holds seq) with
        | some i => finish .ok ((s.retire i).setRes seq 1 0)
        | none => finish .staleAck (s.setRes seq 0 0)
    else finish .framing s
  else finish .badAddr s

/-- TX.TICK: a software tick (rule R102). -/
def execTxTick (s : State) : Result :=
  let s := s.prologue
  finish .ok (s.tickStep.setRes (BitVec.ofNat 32 s.tickRaised) (if s.tickExhausted = [] then 0 else 1) 0)

/-- TX.RETX: take the request with the lowest sequence number (rule R103). -/
def execTxRetx (s : State) : Result :=
  let s := s.prologue
  match (s.trk.filter (·.requested)).map (·.seq) with
  | [] => finish .empty s
  | x :: xs =>
    match s.trk.findIdx? (fun e => e.requested && e.seq == lowestSeq x xs) with
    | none => finish .empty s
    | some i =>
      let e := s.trk.getD i Entry.empty
      finish .ok ({ s with trk := s.trk.set i { e with rq := false } }.setRes e.seq (e.addr.zeroExtend 32) (e.len.zeroExtend 32))

/-- RES0 of TX.QRY: bit 0 pending, bit 1 rq, bit 2 sentinel (rule R104). -/
def Entry.queryBits (e : Entry) : Word := 1 + (if e.rq then 2 else 0) + (if e.sent then 4 else 0)

/-- TX.QRY: look up a sequence number in the TRK table (rule R104). -/
def execTxQry (s : State) : Result :=
  let s := s.prologue
  match s.trk.find? (·.holds s.seqArg) with
  | none => finish .ok s
  | some e => finish .ok (s.setRes e.queryBits (e.age.zeroExtend 32) (e.retries.zeroExtend 32))

/-- The sender's half of the block as TX.RST leaves it (rules R105, R154). -/
def State.resetTrk (s : State) : State :=
  { s with
    trk := s.trk.map (fun _ => Entry.empty)
    trkState := .txOpen
    nextSeq := 0
    failSeq := 0
    cntRetx := 0 }

/-- TX.RST: abort the transfer, or start a new one (rule R105). -/
def execTxRst (s : State) : Result := finish .ok s.prologue.resetTrk

end Sys2Proof.Machine
end

