-- ==== Sys2Proof/Machine/Ctl.lean ====
section
/-! DEFINITION. The control commands NOP and SRST (rules R128, R129), and the reset of the whole block that SRST and the pin rst_n
share (rules R51, R151, R154). -/

namespace Sys2Proof.Machine

/-- Every piece of state of rule R51 at its value after reset, but packet RAM and the slots' data bytes, which are not reset. What
stands at the ports is no state of the block and stays. -/
def State.resetBlock (s : State) : State :=
  { State.resetOf s.params with
    slots := s.slots.map Slot.clear
    trk := s.trk.map (fun _ => Entry.empty)
    pram := s.pram
    agenda := s.agenda
    resp := s.resp }

/-- rst_n asserted and released: the reset of the block, with packet RAM unspecified and no transaction answered yet
(rules R51, R54, R151, R153). -/
def State.powerOnReset (s : State) : State := { s.resetBlock with pram := [], resp := none }

/-- NOP: no operation (rule R128). -/
def execNop (s : State) : Result := finish .ok s.prologue

/-- SRST: soft reset of the whole block (rule R129). -/
def execSrst (s : State) : Result := finish .ok s.prologue.resetBlock

end Sys2Proof.Machine
end

