-- ==== Sys2Proof/Machine/Dispatch.lean ====
section
/-! DEFINITION. Which meaning each command has: one arm per constructor of `Instr`. -/

namespace Sys2Proof.Machine

def exec (i : Instr) (s : State) : Host.Outcome State Fault Refusal :=
  match i with
  | .ckCrc => Sys2Proof.Machine.execCkCrc s
  | .ckEnc => Sys2Proof.Machine.execCkEnc s
  | .ckDec => Sys2Proof.Machine.execCkDec s
  | .ckVfy => Sys2Proof.Machine.execCkVfy s
  | .txSend => Sys2Proof.Machine.execTxSend s
  | .txAck => Sys2Proof.Machine.execTxAck s
  | .txTick => Sys2Proof.Machine.execTxTick s
  | .txRetx => Sys2Proof.Machine.execTxRetx s
  | .txQry => Sys2Proof.Machine.execTxQry s
  | .txRst => Sys2Proof.Machine.execTxRst s
  | .rxPut => Sys2Proof.Machine.execRxPut s
  | .rxPop => Sys2Proof.Machine.execRxPop s
  | .rxAckq => Sys2Proof.Machine.execRxAckq s
  | .rxQry => Sys2Proof.Machine.execRxQry s
  | .rxRst => Sys2Proof.Machine.execRxRst s
  | .nop => Sys2Proof.Machine.execNop s
  | .srst => Sys2Proof.Machine.execSrst s

end Sys2Proof.Machine
end

