-- ==== Sys2Proof/Machine/Bus.lean ====
section
/-! DEFINITION. The agents' steps: the register map and its access rules (rules R27 to R39, R45 to R49), the host bus transaction
(rules R52, R55 to R59), the CMD write that executes a command (rules R23, R78), the tick (rule R101) and rst_n (rule R151). -/

namespace Sys2Proof.Machine

/-- The registers of the map of rule R29. -/
inductive Reg where
  | id | caps0 | caps1 | caps2 | caps3 | cmd | status
  | arg0 | arg1 | arg2 | res0 | res1 | res2
  | win | timeout | retry | mss | sentLen | sent0 | sent1
  | irqStatus | irqEnable
  | nextSeq | expSeq | failSeq | time
  | dlvLevel | ackqLevel | rxBytes
  | cntFraming | cntCsum | cntDup | cntRange | cntRetx
  deriving DecidableEq, Repr

/-- The offset of a register (rule R29). -/
def Reg.offset (r : Reg) : Nat :=
  match r with
  | .id => 0x000
  | .caps0 => 0x004
  | .caps1 => 0x008
  | .caps2 => 0x00C
  | .caps3 => 0x010
  | .cmd => 0x014
  | .status => 0x018
  | .arg0 => 0x01C
  | .arg1 => 0x020
  | .arg2 => 0x024
  | .res0 => 0x028
  | .res1 => 0x02C
  | .res2 => 0x030
  | .win => 0x034
  | .timeout => 0x038
  | .retry => 0x03C
  | .mss => 0x040
  | .sentLen => 0x044
  | .sent0 => 0x048
  | .sent1 => 0x04C
  | .irqStatus => 0x050
  | .irqEnable => 0x054
  | .nextSeq => 0x058
  | .expSeq => 0x05C
  | .failSeq => 0x060
  | .time => 0x064
  | .dlvLevel => 0x068
  | .ackqLevel => 0x06C
  | .rxBytes => 0x070
  | .cntFraming => 0x074
  | .cntCsum => 0x078
  | .cntDup => 0x07C
  | .cntRange => 0x080
  | .cntRetx => 0x084

/-- Every register, in the order of rule R29. -/
def Reg.all : List Reg :=
  [.id, .caps0, .caps1, .caps2, .caps3, .cmd, .status, .arg0, .arg1, .arg2, .res0, .res1, .res2, .win, .timeout, .retry] ++
  [.mss, .sentLen, .sent0, .sent1, .irqStatus, .irqEnable, .nextSeq, .expSeq, .failSeq, .time, .dlvLevel, .ackqLevel] ++
  [.rxBytes, .cntFraming, .cntCsum, .cntDup, .cntRange, .cntRetx]

/-- The register at an offset; none where the offset is reserved (rules R29, R59). -/
def Reg.at? (a : Nat) : Option Reg := Reg.all.find? (fun r => r.offset == a)

/-- What a host read of a register returns; reserved bits read 0 (rules R23, R24, R27, R28, R30). -/
def State.readReg (s : State) (r : Reg) : Word :=
  match r with
  | .id => 0x52445441
  | .caps0 =>
    0x10#8 ++ BitVec.ofNat 8 s.params.ackqDepth ++ BitVec.ofNat 8 s.params.rxSlots ++ BitVec.ofNat 8 s.params.txSlots
  | .caps1 => (BitVec.ofNat 16 s.params.mssMax).zeroExtend 32
  | .caps2 => (BitVec.ofNat 17 s.params.pramBytes).zeroExtend 32
  | .caps3 => (BitVec.ofNat 24 s.params.dlvBytes).zeroExtend 32
  | .cmd => 0
  | .status => s.statusWord
  | .arg0 => s.arg0
  | .arg1 => s.arg1
  | .arg2 => s.arg2
  | .res0 => s.res0
  | .res1 => s.res1
  | .res2 => s.res2
  | .win => s.win.zeroExtend 32
  | .timeout => s.timeout.zeroExtend 32
  | .retry => s.retry.zeroExtend 32
  | .mss => s.mss.zeroExtend 32
  | .sentLen => s.sentLen.zeroExtend 32
  | .sent0 => s.sent0
  | .sent1 => s.sent1
  | .irqStatus => s.irqStatus.zeroExtend 32
  | .irqEnable => s.irqEnable.zeroExtend 32
  | .nextSeq => s.nextSeq
  | .expSeq => s.expSeq
  | .failSeq => s.failSeq
  | .time => s.time
  | .dlvLevel => (BitVec.ofNat 24 s.dlv.length).zeroExtend 32
  | .ackqLevel => (BitVec.ofNat 8 s.ackq.length).zeroExtend 32
  | .rxBytes => s.rxBytes
  | .cntFraming => s.cntFraming
  | .cntCsum => s.cntCsum
  | .cntDup => s.cntDup
  | .cntRange => s.cntRange
  | .cntRetx => s.cntRetx

/-- `min(max(v[7:0], 1), TX_SLOTS)` (rule R31). -/
def legalWin (p : Params) (v : Word) : BitVec 8 :=
  BitVec.ofNat 8 (min (max (v.extractLsb' 0 8).toNat 1) p.txSlots)

/-- `max(v[15:0], 1)` (rule R32). -/
def legalTimeout (v : Word) : BitVec 16 := BitVec.ofNat 16 (max (v.extractLsb' 0 16).toNat 1)

/-- `min(max(v[15:0], 1), MSS_MAX)` (rule R34). -/
def legalMss (p : Params) (v : Word) : BitVec 16 :=
  BitVec.ofNat 16 (min (max (v.extractLsb' 0 16).toNat 1) p.mssMax)

/-- `min(v[3:0], 8)` (rule R35). -/
def legalSentLen (v : Word) : BitVec 4 := BitVec.ofNat 4 (min (v.extractLsb' 0 4).toNat 8)

/-- What a host write to a register stores: RW and WARL store, W1C clears, RO is ignored (rules R30 to R35, R49, R56). A write to
CMD executes a command instead, in `hostWrite`. -/
def State.writeReg (s : State) (r : Reg) (v : Word) : State :=
  match r with
  | .arg0 => { s with arg0 := v }
  | .arg1 => { s with arg1 := v }
  | .arg2 => { s with arg2 := v }
  | .win => { s with win := legalWin s.params v }
  | .timeout => { s with timeout := legalTimeout v }
  | .retry => { s with retry := v.extractLsb' 0 16 }
  | .mss => { s with mss := legalMss s.params v }
  | .sentLen => { s with sentLen := legalSentLen v }
  | .sent0 => { s with sent0 := v }
  | .sent1 => { s with sent1 := v }
  | .irqStatus => { s with irqStatus := s.irqStatus &&& ~~~ (v.extractLsb' 0 8) }
  | .irqEnable => { s with irqEnable := v.extractLsb' 0 8 }
  | .cmd => s
  | .id => s
  | .caps0 => s
  | .caps1 => s
  | .caps2 => s
  | .caps3 => s
  | .status => s
  | .res0 => s
  | .res1 => s
  | .res2 => s
  | .nextSeq => s
  | .expSeq => s
  | .failSeq => s
  | .time => s
  | .dlvLevel => s
  | .ackqLevel => s
  | .rxBytes => s
  | .cntFraming => s
  | .cntCsum => s
  | .cntDup => s
  | .cntRange => s
  | .cntRetx => s

/-- The size of a transaction in bytes (rule R55). -/
def Size.bytes (z : Size) : Nat :=
  match z with
  | .byte => 1
  | .half => 2
  | .word => 4

/-- The two bus errors: a misaligned access, and a register-space access that is not 4 bytes (rules R55, R139). -/
def BusReq.isError (r : BusReq) : Bool :=
  decide (r.addr.toNat % r.size.bytes ≠ 0 ∨ (r.addr.toNat < 0x1000 ∧ r.size ≠ .word))

/-- What stands at an offset of the aperture (rule R52). -/
inductive Region where
  /-- A register of rule R29. -/
  | register (r : Reg)
  /-- Packet RAM, at this packet-RAM offset. -/
  | pram (offset : Nat)
  /-- Reserved: reads 0, writes ignored. -/
  | reserved
  deriving DecidableEq, Repr

/-- The aperture's layout (rules R52, R59). -/
def regionOf (p : Params) (a : Nat) : Region :=
  if a < 0x1000 then
    match Reg.at? a with
    | some r => .register r
    | none => .reserved
  else if 0x10000 ≤ a ∧ a < 0x10000 + p.pramBytes then .pram (a - 0x10000)
  else .reserved

/-- The bus port answers a transaction. -/
def State.respond (s : State) (error : Bool) (rdata : Word) : State :=
  { s with resp := some { error := error, rdata := rdata } }

/-- `Execute(w)`: the command a CMD write of word w executes (rule R78); a word no command has ends with ILLEGAL_CMD (rule R77). -/
def execWord (w : Word) (s : State) : Result :=
  match decode w with
  | .command i => exec i s
  | .illegal _ => execIllegal s

/-- A host read that passes the checks of rule R55 (rules R56, R58, R59). -/
def hostRead (r : BusReq) (s : State) : Result :=
  match regionOf s.params r.addr.toNat with
  | .register g => .next (s.respond false (s.readReg g))
  | .pram o => s.memRead o r.size.bytes fun d => .next (s.respond false (wordOfLanes d))
  | .reserved => .next (s.respond false 0)

/-- A host write that passes the checks of rule R55 (rules R56, R58, R59). -/
def hostWrite (r : BusReq) (s : State) : Result :=
  match regionOf s.params r.addr.toNat with
  | .register .cmd => execWord r.wdata (s.respond false 0)
  | .register g => .next ((s.respond false 0).writeReg g r.wdata)
  | .pram o => .next ((s.respond false 0).memWrite o (lanesOfWord r.wdata r.size.bytes))
  | .reserved => .next (s.respond false 0)

/-- One host bus transaction (rules R55, R57). -/
def hostStep (r : BusReq) (s : State) : Result :=
  if r.isError then .next (s.respond true 0)
  else
    match r.dir with
    | .read => hostRead r s
    | .write => hostWrite r s

/-- One event at the ports: a transaction, a tick step, or rst_n (rules R55, R101, R151). -/
def runEvent (e : Event) (s : State) : Result :=
  match e with
  | .host r => hostStep r s
  | .tick => .next s.tickStep
  | .powerOn => .next s.powerOnReset

/-- A 4-byte write of a value to a register (`wr NAME, v` of rule R82). -/
def wrReg (r : Reg) (v : Word) : Event :=
  .host { dir := .write, addr := BitVec.ofNat 17 r.offset, size := .word, wdata := v }

/-- A 4-byte read of a register (`rd NAME` of rule R82). -/
def rdReg (r : Reg) : Event :=
  .host { dir := .read, addr := BitVec.ofNat 17 r.offset, size := .word, wdata := 0 }

end Sys2Proof.Machine
end

