-- ==== Sys2Proof/Machine/Step.lean ====
section
/-! DEFINITION. One step of the block: the next event at its ports is carried out as one atomic step (rules R13, R64, R67). -/

namespace Sys2Proof.Machine

/-- One step. A build outside rule R5 or rule R6 is refused (rule R14). With nothing at its ports the block is idle and holds all
state (rule R149). -/
def step (s : State) : Host.Outcome State Fault Refusal :=
  if s.params.legal then
    match s.agenda with
    | [] => .next s
    | e :: rest => runEvent e { s with agenda := rest }
  else .refused .illegalConfig

/-- The block with a CMD write of the row's word as the next event at its ports. The block fetches nothing (rule R20): the host
writes each command to CMD (rules R23, R73). -/
def State.withFetchWord (s : State) (nbits w : Nat) : State :=
  { s with agenda := wrReg .cmd (tableWord nbits w) :: s.agenda }

end Sys2Proof.Machine
end

