-- ==== Sys2Proof/Machine/HostProgram.lean ====
section
/-! DEFINITION. The notation of host programs: its statements and the transactions each stands for (rules R82, R83). -/

namespace Sys2Proof.Machine

/-- One line of a host program (rule R82). -/
inductive Stmt where
  /-- `wr NAME, v` -/
  | wr (r : Reg) (v : Word)
  /-- `rd NAME` -/
  | rd (r : Reg)
  /-- `pw8`, `pw16`, `pw32 p, v`, at packet-RAM offset p -/
  | pw (z : Size) (p : Nat) (v : Word)
  /-- `pr8`, `pr16`, `pr32 p` -/
  | pr (z : Size) (p : Nat)
  /-- `pbytes p, h0 h1 ... hk` -/
  | pbytes (p : Nat) (bs : List Byte)
  /-- `tick` -/
  | tick
  /-- `MNEMONIC [a0][, a1][, a2]` with the operands the command takes, in the order ARG0, ARG1, ARG2 -/
  | cmd (i : Instr) (vals : List Word)
  deriving DecidableEq, Repr

/-- A command line gives exactly the operands its command takes, and a packet-RAM offset lies in the aperture (rules R52, R83). -/
def Stmt.wellFormed (t : Stmt) : Bool :=
  match t with
  | .wr _ _ => true
  | .rd _ => true
  | .pw _ p _ => decide (p < 0x10000)
  | .pr _ p => decide (p < 0x10000)
  | .pbytes p bs => decide (p + bs.length ≤ 0x10000)
  | .tick => true
  | .cmd i vals => vals.length == (operandsOf i).length

/-- The register of an operand's role (rule R75). -/
def Operand.reg (o : Operand) : Reg :=
  match o with
  | .seq => .arg0
  | .base => .arg1
  | .len => .arg2

/-- A write of size z at a packet-RAM offset: bus offset 0x10000 + p (rule R82). -/
def wrPram (z : Size) (p : Nat) (v : Word) : Event :=
  .host { dir := .write, addr := BitVec.ofNat 17 (0x10000 + p), size := z, wdata := v }

/-- A read of size z at a packet-RAM offset (rule R82). -/
def rdPram (z : Size) (p : Nat) : Event :=
  .host { dir := .read, addr := BitVec.ofNat 17 (0x10000 + p), size := z, wdata := 0 }

/-- One byte write per listed byte (`pbytes` of rule R82). -/
def wrBytes (p : Nat) (bs : List Byte) : List Event :=
  match bs with
  | [] => []
  | b :: rest => wrPram .byte p (b.zeroExtend 32) :: wrBytes (p + 1) rest

/-- The transactions a statement expands to (rules R82, R83). -/
def Stmt.expand (t : Stmt) : List Event :=
  match t with
  | .wr r v => [wrReg r v]
  | .rd r => [rdReg r]
  | .pw z p v => [wrPram z p v]
  | .pr z p => [rdPram z p]
  | .pbytes p bs => wrBytes p bs
  | .tick => [.tick]
  | .cmd i vals => ((operandsOf i).zip vals).map (fun x => wrReg x.1.reg x.2) ++ [wrReg .cmd (encode i)]

/-- A host program as the events that reach the block (rule R82). -/
def assemble (prog : List Stmt) : List Event := prog.flatMap Stmt.expand

/-- The block with a host program still to arrive at its ports. -/
def State.load (s : State) (prog : List Stmt) : State := { s with agenda := s.agenda ++ assemble prog }

end Sys2Proof.Machine
end

