-- ==== Sys2Proof/Safety.lean ====
section
/-! DEFINITION. What claims about the block are stated in: the invariants the spec lists (rules R42, R44, R51, R54), what a safe
step is (rule R14), which event comes next, and the two forms a command's outcome takes (rules R131, R136). -/

namespace Sys2Proof.Machine

/-- The build is legal and every configuration register holds a value its write rule can give (rules R5, R6, R31, R32, R34, R35). -/
structure ConfigInv (s : State) : Prop where
  legal     : s.params.legal = true
  winLow    : 1 ≤ s.win.toNat
  winHigh   : s.win.toNat ≤ s.params.txSlots
  timeout   : 1 ≤ s.timeout.toNat
  mssLow    : 1 ≤ s.mss.toNat
  mssHigh   : s.mss.toNat ≤ s.params.mssMax
  sentLen   : s.sentLen.toNat ≤ 8

/-- Packet RAM is canonical and lists only offsets that exist (rule R53); the FIFOs respect their capacities (rules R45, R46). -/
structure StorageInv (s : State) : Prop where
  canonical : s.pram.wf = true
  inside    : ∀ c ∈ s.pram, c.1 < s.params.pramBytes
  dlvFits   : s.dlv.length ≤ s.params.dlvBytes
  ackqFits  : s.ackq.length ≤ s.params.ackqDepth

/-- The TRK invariants of rule R42, and what makes them inductive: no sentinel is pending in OPEN, and some entry is in CLOSING
(rule R41). -/
structure TrackerInv (s : State) : Prop where
  length       : s.trk.length = s.params.txSlots
  seqUnique    : s.trk.Pairwise (fun a b => a.valid = true → b.valid = true → a.seq ≠ b.seq)
  seqBelow     : ∀ e ∈ s.trk, e.valid = true → e.seq.toNat < s.nextSeq.toNat
  oneSentinel  : s.trk.countP (fun e => e.valid && e.sent) ≤ 1
  invalidEmpty : ∀ e ∈ s.trk, e.valid = false → e = Entry.empty
  inPram       : ∀ e ∈ s.trk, e.valid = true → e.addr.toNat + e.len.toNat ≤ s.params.pramBytes
  doneEmpty    : s.trkState = .txDone → s.txCount = 0
  openNoEnd    : s.trkState = .txOpen → ∀ e ∈ s.trk, e.valid = true → e.sent = false
  closingHeld  : s.trkState = .txClosing → s.txCount ≠ 0

/-- Slot j holds a packet of the receive range that belongs into it (rules R43, R44, R119). -/
structure SlotPlaced (s : State) (j : Nat) : Prop where
  place  : (s.slot j).seq.toNat % s.params.rxSlots = j
  low    : s.expSeq.toNat ≤ (s.slot j).seq.toNat
  high   : (s.slot j).seq.toNat < s.expSeq.toNat + s.params.rxSlots
  notTop : (s.slot j).seq ≠ 0xFFFFFFFF
  fits   : (s.slot j).len.toNat ≤ s.params.mssMax
  data   : (s.slot j).len.toNat ≤ (s.slot j).data.length

/-- The RAB invariants of rule R44, that a slot not valid has seq, len and sent 0 (rules R43, R113), and that between steps the
delivery loop has nothing to do (rules R113, R115). -/
structure ReassemblyInv (s : State) : Prop where
  length   : s.slots.length = s.params.rxSlots
  placed   : ∀ j, j < s.params.rxSlots → (s.slot j).valid = true → SlotPlaced s j
  cleared  : ∀ j, j < s.params.rxSlots → (s.slot j).valid = false →
    (s.slot j).seq = 0 ∧ (s.slot j).len = 0 ∧ (s.slot j).sent = false
  awaiting : s.rabState = .awaiting →
    s.expSeq = 0 ∧ (∀ j, j < s.params.rxSlots → (s.slot j).valid = false) ∧ s.dlv = [] ∧ s.ackq = []
  drained  : s.drainOne = none

/-- Everything that holds of the block between two steps. -/
structure BlockInv (s : State) : Prop where
  config     : ConfigInv s
  storage    : StorageInv s
  tracker    : TrackerInv s
  reassembly : ReassemblyInv s

/-- A step is safe when it does not stop with a fault. -/
def Safe (s : State) : Prop := ∀ f, step s ≠ .fault f

/-- Every byte of packet RAM has been written since power-on (rule R54). -/
def PramWritten (s : State) : Prop := ∀ a, a < s.params.pramBytes → (s.pram.read? a).isSome = true

/-- The word a CMD write executes, if the next event is one that passes the checks of rule R55. -/
def State.nextCmdWord (s : State) : Option Word :=
  match s.agenda with
  | .host r :: _ => if r.dir = .write ∧ r.addr = 0x014 ∧ r.size = .word then some r.wdata else none
  | .tick :: _ => none
  | .powerOn :: _ => none
  | [] => none

/-- The next event executes command i. -/
def State.executes (s : State) (i : Instr) : Prop := s.nextCmdWord = some (encode i)

/-- The next event is rst_n. -/
def State.powersOn (s : State) : Prop := s.agenda.head? = some .powerOn

/-- The next event writes a register other than CMD. -/
def State.writes (s : State) (r : Reg) (v : Word) : Prop := s.agenda.head? = some (wrReg r v)

/-- A sequence number is pending: a valid entry holds it (rules R40, R106). -/
def State.pending (s : State) (k : Word) : Prop := ∃ e ∈ s.trk, e.valid = true ∧ e.seq = k

/-- The timers of rule R99 run: TRK.state is OPEN or CLOSING. -/
abbrev State.ticking (s : State) : Prop := s.trkState = .txOpen ∨ s.trkState = .txClosing

/-- Rule R99's words for an entry that raises a request in the next tick: it is valid, its age reaches TIMEOUT, and RETRY is 0 or its
retries are below RETRY. -/
def State.asksRetx (s : State) (e : Entry) : Bool :=
  e.valid && decide (s.timeout.toNat ≤ min (e.age.toNat + 1) 0xFFFF) && decide (s.retry = 0 ∨ e.retries.toNat < s.retry.toNat)

/-- Rule R99's words for an entry the next tick exhausts: it is valid, its age reaches TIMEOUT, RETRY is not 0 and its retries have
reached RETRY. -/
def State.wearsOut (s : State) (e : Entry) : Bool :=
  e.valid && decide (s.timeout.toNat ≤ min (e.age.toNat + 1) 0xFFFF) && decide (s.retry ≠ 0 ∧ s.retry.toNat ≤ e.retries.toNat)

/-- The state a command leaves that ends with a code of class S, F, N or T and has no effect but these results (rules R131, R136). -/
def State.ends (s : State) (c : Code) (r0 r1 r2 : Word) : State :=
  { s with code := c, res0 := r0, res1 := r1, res2 := r2 }

/-- The state a command leaves that ends with a code of class H: no results, and CMD_ERR, bit 7, set (rules R131, R133, R136). -/
def State.hostError (s : State) (c : Code) : State :=
  { s with code := c, res0 := 0, res1 := 0, res2 := 0, irqStatus := s.irqStatus ||| 0x80 }

/-- Bit k of a datagram, bit k mod 8 of byte k / 8, flipped (rule R89). -/
def flipBit (d : List Byte) (k : Nat) : List Byte := d.set (k / 8) (d.getD (k / 8) 0 ^^^ (1#8 <<< (k % 8)))

/-- The datagram RX.PUT is given: the bytes [ARG1, ARG1 + ARG2) of packet RAM (rule R114). -/
def State.datagram (s : State) : Option (List Byte) := s.pram.readBytes s.arg1.toNat s.arg2.toNat

/-- The stream of one sender transfer so far (rules R120, R125). `c k` is the payload of sequence number k, m the sentinel's
number, and `popped` the bytes RX.POP has returned since RX.RST. What was popped and what DLV holds are together the payloads
delivered, in order, the sentinel excepted; every buffered packet is one of the transfer's; COMPLETE is past the sentinel. -/
structure Stream (c : Nat → List Byte) (m : Nat) (popped : List Byte) (s : State) : Prop where
  bytes    : popped ++ s.dlv = ((List.range (min s.expSeq.toNat m)).map c).flatten
  buffered : ∀ j, j < s.params.rxSlots → (s.slot j).valid = true →
    (s.slot j).seq.toNat ≤ m ∧ (s.slot j).payload = c (s.slot j).seq.toNat ∧
      ((s.slot j).sent = true ↔ (s.slot j).seq.toNat = m)
  cursor   : s.expSeq.toNat ≤ m + 1
  complete : s.rabState = .complete ↔ s.expSeq.toNat = m + 1

end Sys2Proof.Machine
end

