-- ==== Sys2Proof/Certificates/Slice0/Obligations.lean ====
section
/-! DEFINITION. The statements about the block, from the numbered rules of the spec. Each says in its docstring which rules it
formalises; OBLIGATIONS.json lists them. -/

open Sys2Proof Sys2Proof.Machine

/-! ## Command words -/

/-- R81: decoding the encoding of a command gives the command back, and no other word decodes to it. -/
def Obligations.DecodeReadsExactlyTheEncodings : Prop :=
  (∀ i : Instr, i.wellFormed = true → decode (encode i) = .command i) ∧
  (∀ (w : Word) (i : Instr), decode w = .command i → encode i = w)

/-- R77: which words are illegal, in the rule's four groups, and that executing one has no effect but RES0..RES2, STATUS.CODE and
CMD_ERR. -/
def Obligations.IllegalWordsEndWithIllegalCmd : Prop :=
  ∀ w : Word,
    (decode w = .illegal .reservedBits ↔ 0xFF < w.toNat) ∧
    (decode w = .illegal .opcodeZero ↔ w.toNat = 0x00) ∧
    (decode w = .illegal .unassignedFunction ↔
      (0x05 ≤ w.toNat ∧ w.toNat ≤ 0x0F) ∨ (0x16 ≤ w.toNat ∧ w.toNat ≤ 0x1F) ∨
        (0x25 ≤ w.toNat ∧ w.toNat ≤ 0x2F) ∨ (0x32 ≤ w.toNat ∧ w.toNat ≤ 0x3F)) ∧
    (decode w = .illegal .unassignedUnit ↔ 0x40 ≤ w.toNat ∧ w.toNat ≤ 0xFF) ∧
    (∀ why s, decode w = .illegal why → execWord w s = .next (s.hostError .illegalCmd))

/-- R76, R84: words written out bit by bit from the opcode map decode to their commands, one of each unit, and the illegal words
of rule R84 do not decode. -/
def Obligations.WrittenOutWordsDecode : Prop :=
  decode 0b00000000000000000000000000000010#32 = .command .ckEnc ∧
  decode 0b00000000000000000000000000010000#32 = .command .txSend ∧
  decode 0b00000000000000000000000000010010#32 = .command .txTick ∧
  decode 0b00000000000000000000000000100000#32 = .command .rxPut ∧
  decode 0b00000000000000000000000000110001#32 = .command .srst ∧
  decode 0x00000112#32 = .illegal .reservedBits ∧
  decode 0x00000000#32 = .illegal .opcodeZero ∧
  decode 0x00000025#32 = .illegal .unassignedFunction

/-- R83: what the pseudo-instructions of every operand shape expand to. -/
def Obligations.PseudoInstructionsExpandToArgAndCmdWrites : Prop :=
  ∀ seq base len : Word,
    (Stmt.cmd .ckEnc [seq, base, len]).expand =
      [.host ⟨.write, 0x01C, .word, seq⟩, .host ⟨.write, 0x020, .word, base⟩, .host ⟨.write, 0x024, .word, len⟩,
       .host ⟨.write, 0x014, .word, 0x02⟩] ∧
    (∀ i, i ∈ [Instr.ckCrc, .ckDec, .ckVfy, .txSend, .txAck, .rxPut] →
      (Stmt.cmd i [base, len]).expand =
        [.host ⟨.write, 0x020, .word, base⟩, .host ⟨.write, 0x024, .word, len⟩, .host ⟨.write, 0x014, .word, encode i⟩]) ∧
    (Stmt.cmd .rxAckq [base]).expand = [.host ⟨.write, 0x020, .word, base⟩, .host ⟨.write, 0x014, .word, 0x22⟩] ∧
    (∀ i, i ∈ [Instr.txQry, .rxQry] →
      (Stmt.cmd i [seq]).expand = [.host ⟨.write, 0x01C, .word, seq⟩, .host ⟨.write, 0x014, .word, encode i⟩]) ∧
    (∀ i, i ∈ [Instr.txTick, .txRetx, .txRst, .rxPop, .rxRst, .nop, .srst] →
      (Stmt.cmd i []).expand = [.host ⟨.write, 0x014, .word, encode i⟩])

/-! ## Steps and transactions -/

/-- R23, R78: the step whose next event is a 4-byte write of w to CMD runs the command w decodes to, once the transaction is
answered; a word no command has ends with ILLEGAL_CMD. The agenda and the answer's field are the model's form (assumption 2), that
the answer stands before the command runs is assumption 13, and that a write answers read data 0 is assumption 14. -/
def Obligations.StepRunsTheDecodedCommand : Prop :=
  ∀ (s : State) (w : Word) (rest : List Event),
    s.params.legal = true → s.agenda = .host ⟨.write, 0x014, .word, w⟩ :: rest →
    (∀ i, decode w = .command i →
      step s = exec i { s with agenda := rest, resp := some ⟨false, 0⟩ }) ∧
    (∀ why, decode w = .illegal why →
      step s = .next ({ s with agenda := rest, resp := some ⟨false, 0⟩ }.hostError .illegalCmd))

/-- R101: a pulse on tick_i performs TickStep() and nothing else: STATUS.CODE, RES0..RES2, packet RAM and the receiver stay.
R6, R14: a build that breaks the constraint is refused. R149, and assumption 2: with no event at its ports the block holds all
state. -/
def Obligations.StepTicksOrIdlesOrRefusesTheBuild : Prop :=
  ∀ s : State,
    (∀ rest, s.params.legal = true → s.agenda = .tick :: rest →
      ∃ t, step s = .next t ∧ t = State.tickStep { s with agenda := rest } ∧
        t.code = s.code ∧ t.res0 = s.res0 ∧ t.res1 = s.res1 ∧ t.res2 = s.res2 ∧
        t.pram = s.pram ∧ t.slots = s.slots ∧ t.dlv = s.dlv ∧ t.ackq = s.ackq) ∧
    (s.params.legal = true → s.agenda = [] → step s = .next s) ∧
    (s.params.dlvBytes < s.params.mssMax → step s = .refused .illegalConfig)

/-- R55, R57: a misaligned access, and an access to register space that is not 4 bytes, change nothing and read 0. -/
def Obligations.BusErrorsHaveNoEffect : Prop :=
  ∀ (s : State) (r : BusReq),
    (r.addr.toNat % r.size.bytes ≠ 0 ∨ (r.addr.toNat ≤ 0x00FFF ∧ r.size.bytes ≠ 4)) →
    hostStep r s = .next { s with resp := some ⟨true, 0⟩ }

/-- R59: an access to a reserved offset that passes the checks of R55 completes, writes nothing, and a read returns 0. The read
data 0 of a WRITE is the model's choice (assumption 14), no rule's. -/
def Obligations.ReservedOffsetsReadZeroAndIgnoreWrites : Prop :=
  ∀ (s : State) (r : BusReq),
    r.addr.toNat % r.size.bytes = 0 →
    ((0x088 ≤ r.addr.toNat ∧ r.addr.toNat ≤ 0xFFF ∧ r.size = .word) ∨
      (0x01000 ≤ r.addr.toNat ∧ r.addr.toNat ≤ 0x0FFFF) ∨
      (0x10000 + s.params.pramBytes ≤ r.addr.toNat ∧ 0x10000 ≤ r.addr.toNat)) →
    hostStep r s = .next { s with resp := some ⟨false, 0⟩ }

/-- R65: no bus read has a side effect. -/
def Obligations.BusReadsHaveNoSideEffect : Prop :=
  ∀ (s t : State) (r : BusReq),
    r.dir = .read → hostStep r s = .next t → ∃ a, t = { s with resp := some a }

/-- R58: a write to packet RAM stores its lanes little-endian and nothing else, for each of the three sizes, and a read of the same
size then returns what was written. The read data 0 of the write's answer is the model's choice (assumption 14). -/
def Obligations.PramLanesAreLittleEndian : Prop :=
  ∀ (s : State) (z : Size) (p : Nat) (v : Word),
    s.params.legal = true → p % z.bytes = 0 → p + z.bytes ≤ s.params.pramBytes →
    ∃ t, hostStep ⟨.write, BitVec.ofNat 17 (0x10000 + p), z, v⟩ s = .next t ∧
      (∀ k, k < z.bytes → t.pram.read? (p + k) = some (v.extractLsb' (8 * k) 8)) ∧
      (∀ a, a < p ∨ p + z.bytes ≤ a → t.pram.read? a = s.pram.read? a) ∧
      t = { s with pram := t.pram, resp := some ⟨false, 0⟩ } ∧
      hostStep ⟨.read, BitVec.ofNat 17 (0x10000 + p), z, 0⟩ t =
        .next { t with resp := some ⟨false, BitVec.ofNat 32 (v.toNat % 2 ^ (8 * z.bytes))⟩ }

/-- R54: a read of a packet-RAM byte no write has given a value is a refusal, for the host and for the MemRead of every command
that reads, once the command has passed the checks before its MemRead. -/
def Obligations.UnwrittenPramReadIsRefused : Prop :=
  ∀ (s : State) (a : Nat), s.pram.read? a = none →
    (∀ (z : Size) (p : Nat), s.params.legal = true → p % z.bytes = 0 → p + z.bytes ≤ s.params.pramBytes →
      p ≤ a → a < p + z.bytes →
      hostStep ⟨.read, BitVec.ofNat 17 (0x10000 + p), z, 0⟩ s = .refused .unwrittenPram) ∧
    (s.arg1.toNat + s.arg2.toNat ≤ s.params.pramBytes → s.arg1.toNat ≤ a → a < s.arg1.toNat + s.arg2.toNat →
      exec .ckCrc s = .refused .unwrittenPram ∧
      (8 ≤ s.arg2.toNat → exec .ckVfy s = .refused .unwrittenPram) ∧
      (8 ≤ s.arg2.toNat → a < s.arg1.toNat + 8 → exec .ckDec s = .refused .unwrittenPram) ∧
      (s.arg2.toNat = 4 → exec .txAck s = .refused .unwrittenPram) ∧
      (8 ≤ s.arg2.toNat → s.ackq.length ≠ s.params.ackqDepth → exec .rxPut s = .refused .unwrittenPram)) ∧
    (s.arg1.toNat + 8 + s.arg2.toNat ≤ s.params.pramBytes → s.arg2.toNat ≤ s.mss.toNat →
      s.arg1.toNat + 8 ≤ a → a < s.arg1.toNat + 8 + s.arg2.toNat →
      exec .ckEnc s = .refused .unwrittenPram ∧
      (s.trkState = .txOpen → s.nextSeq ≠ 0xFFFFFFFF → s.txCount < s.win.toNat →
        exec .txSend s = .refused .unwrittenPram))

/-- R22, R23, R27, R28, R30, R31 to R39, R45 to R49: what a 4-byte host read at each register's offset returns. -/
def Obligations.RegisterReadsReturnTheirFields : Prop :=
  ∀ s : State,
    (∀ x ∈ ([(0x000, 0x52445441), (0x014, 0#32), (0x01C, s.arg0), (0x020, s.arg1), (0x024, s.arg2), (0x028, s.res0),
        (0x02C, s.res1), (0x030, s.res2), (0x048, s.sent0), (0x04C, s.sent1), (0x058, s.nextSeq), (0x05C, s.expSeq),
        (0x060, s.failSeq), (0x064, s.time), (0x070, s.rxBytes), (0x074, s.cntFraming), (0x078, s.cntCsum),
        (0x07C, s.cntDup), (0x080, s.cntRange), (0x084, s.cntRetx)] : List (BitVec 17 × Word)),
      hostStep ⟨.read, x.1, .word, 0⟩ s = .next { s with resp := some ⟨false, x.2⟩ }) ∧
    (∀ x ∈ ([(0x034, s.win.toNat), (0x038, s.timeout.toNat), (0x03C, s.retry.toNat), (0x040, s.mss.toNat),
        (0x044, s.sentLen.toNat), (0x050, s.irqStatus.toNat), (0x054, s.irqEnable.toNat),
        (0x068, s.dlv.length % 2 ^ 24), (0x06C, s.ackq.length % 2 ^ 8)] : List (BitVec 17 × Nat)),
      hostStep ⟨.read, x.1, .word, 0⟩ s = .next { s with resp := some ⟨false, BitVec.ofNat 32 x.2⟩ }) ∧
    (s.params.legal = true →
      ∀ x ∈ ([(0x004, s.params.txSlots + 2 ^ 8 * s.params.rxSlots + 2 ^ 16 * s.params.ackqDepth + 2 ^ 24 * 0x10),
          (0x008, s.params.mssMax), (0x00C, s.params.pramBytes), (0x010, s.params.dlvBytes)] : List (BitVec 17 × Nat)),
        hostStep ⟨.read, x.1, .word, 0⟩ s = .next { s with resp := some ⟨false, BitVec.ofNat 32 x.2⟩ })

/-- R24, R26, R41, R44, R132: the fields of STATUS as a host read returns it, with the number of each of the 15 result codes, the
three receiver states and the four sender states written out. -/
def Obligations.StatusReadPacksItsFields : Prop :=
  ∀ s : State, BlockInv s →
    ∃ w : Word, hostStep ⟨.read, 0x018, .word, 0⟩ s = .next { s with resp := some ⟨false, w⟩ } ∧
      (∀ x ∈ ([(.ok, 0x00), (.empty, 0x01), (.windowFull, 0x02), (.framing, 0x03), (.csumMismatch, 0x04), (.duplicate, 0x05),
          (.outOfRange, 0x06), (.staleAck, 0x07), (.ackqFull, 0x08), (.txClosed, 0x09), (.txFailed, 0x0A), (.seqExhausted, 0x0B),
          (.badAddr, 0x0C), (.badLen, 0x0D), (.illegalCmd, 0x0E)] : List (Code × Nat)),
        s.code = x.1 → (w.extractLsb' 0 8).toNat = x.2) ∧
      (∀ x ∈ ([(.awaiting, 0), (.buffering, 1), (.complete, 2)] : List (RabState × Nat)),
        s.rabState = x.1 → (w.extractLsb' 8 2).toNat = x.2) ∧
      (∀ x ∈ ([(.txOpen, 0), (.txClosing, 1), (.txDone, 2), (.txFailed, 3)] : List (TrkState × Nat)),
        s.trkState = x.1 → (w.extractLsb' 10 2).toNat = x.2) ∧
      w.extractLsb' 12 4 = 0#4 ∧
      (w.extractLsb' 16 8).toNat = s.trk.countP (·.valid) ∧
      (w.extractLsb' 24 8).toNat = s.slots.countP (·.valid)

/-- R21, R30 to R35, R49: what a 4-byte host write of v to each writable register stores, everything else unchanged; a write to a
read-only register is ignored and completes without a bus error. The read data 0 of each write's answer is the model's choice
(assumption 14). -/
def Obligations.RegisterWritesStoreTheLegalValue : Prop :=
  ∀ (s : State) (v : Word), s.params.legal = true →
    hostStep ⟨.write, 0x01C, .word, v⟩ s = .next { s with resp := some ⟨false, 0⟩, arg0 := v } ∧
    hostStep ⟨.write, 0x020, .word, v⟩ s = .next { s with resp := some ⟨false, 0⟩, arg1 := v } ∧
    hostStep ⟨.write, 0x024, .word, v⟩ s = .next { s with resp := some ⟨false, 0⟩, arg2 := v } ∧
    (∃ x, hostStep ⟨.write, 0x034, .word, v⟩ s = .next { s with resp := some ⟨false, 0⟩, win := x } ∧
      x.toNat = min (max (v.toNat % 2 ^ 8) 1) s.params.txSlots) ∧
    (∃ x, hostStep ⟨.write, 0x038, .word, v⟩ s = .next { s with resp := some ⟨false, 0⟩, timeout := x } ∧
      x.toNat = max (v.toNat % 2 ^ 16) 1) ∧
    (∃ x, hostStep ⟨.write, 0x03C, .word, v⟩ s = .next { s with resp := some ⟨false, 0⟩, retry := x } ∧
      x.toNat = v.toNat % 2 ^ 16) ∧
    (∃ x, hostStep ⟨.write, 0x040, .word, v⟩ s = .next { s with resp := some ⟨false, 0⟩, mss := x } ∧
      x.toNat = min (max (v.toNat % 2 ^ 16) 1) s.params.mssMax) ∧
    (∃ x, hostStep ⟨.write, 0x044, .word, v⟩ s = .next { s with resp := some ⟨false, 0⟩, sentLen := x } ∧
      x.toNat = min (v.toNat % 2 ^ 4) 8) ∧
    hostStep ⟨.write, 0x048, .word, v⟩ s = .next { s with resp := some ⟨false, 0⟩, sent0 := v } ∧
    hostStep ⟨.write, 0x04C, .word, v⟩ s = .next { s with resp := some ⟨false, 0⟩, sent1 := v } ∧
    (∃ x, hostStep ⟨.write, 0x050, .word, v⟩ s = .next { s with resp := some ⟨false, 0⟩, irqStatus := x } ∧
      ∀ k, k < 8 → x.getLsbD k = (s.irqStatus.getLsbD k && !v.getLsbD k)) ∧
    (∃ x, hostStep ⟨.write, 0x054, .word, v⟩ s = .next { s with resp := some ⟨false, 0⟩, irqEnable := x } ∧
      x.toNat = v.toNat % 2 ^ 8) ∧
    (∀ a ∈ ([0x000, 0x004, 0x008, 0x00C, 0x010, 0x018, 0x028, 0x02C, 0x030, 0x058, 0x05C, 0x060, 0x064, 0x068, 0x06C,
        0x070, 0x074, 0x078, 0x07C, 0x080, 0x084] : List (BitVec 17)),
      hostStep ⟨.write, a, .word, v⟩ s = .next { s with resp := some ⟨false, 0⟩ })

/-- R35: the sentinel string has SENTLEN bytes; byte i is SENT0[31-8i : 24-8i] below index 4 and SENT1[31-8(i-4) : 24-8(i-4)] from
index 4 on, and with SENTLEN = 0 it is the empty payload. -/
def Obligations.SentinelBytesComeFromTheirRegisters : Prop :=
  ∀ s : State, s.sentLen.toNat ≤ 8 →
    s.sentinel.length = s.sentLen.toNat ∧
    (∀ i, i < s.sentLen.toNat → i < 4 → s.sentinel[i]? = some (s.sent0.extractLsb' (24 - 8 * i) 8)) ∧
    (∀ i, i < s.sentLen.toNat → 4 ≤ i → s.sentinel[i]? = some (s.sent1.extractLsb' (24 - 8 * (i - 4)) 8)) ∧
    (s.sentLen = 0 → s.sentinel = []) ∧
    (∀ b, s.isSentinel b = true ↔
      b.length = s.sentLen.toNat ∧ ∀ i, i < b.length → b[i]? = s.sentinel[i]?)

/-- R142: irq_o is high exactly when some bit is set in IRQ_STATUS and in IRQ_ENABLE. -/
def Obligations.IrqOutputIsTheMaskedOr : Prop :=
  ∀ s : State, s.irqO = true ↔ ∃ k, k < 8 ∧ s.irqStatus.getLsbD k = true ∧ s.irqEnable.getLsbD k = true

/-- R141: a step clears an IRQ_STATUS bit only by a host write of 1 to it, by SRST or by rst_n. -/
def Obligations.IrqBitsAreSticky : Prop :=
  ∀ (s t : State) (k : Nat), step s = .next t →
    s.irqStatus.getLsbD k = true → t.irqStatus.getLsbD k = false →
    s.executes .srst ∨ s.powersOn ∨ ∃ v, s.writes .irqStatus v ∧ v.getLsbD k = true

/-- R25, R79, R164: only a CMD write, or rst_n, changes STATUS.CODE, RES0, RES1 or RES2. -/
def Obligations.OnlyCommandsWriteCodeAndResults : Prop :=
  ∀ s t : State, step s = .next t →
    (t.code ≠ s.code ∨ t.res0 ≠ s.res0 ∨ t.res1 ≠ s.res1 ∨ t.res2 ≠ s.res2) →
    (∃ w, s.nextCmdWord = some w) ∨ s.powersOn

/-- R21, R78: a command reads ARG0, ARG1 and ARG2 and never writes them, but for SRST, which resets them; nor does any command
but SRST write a configuration register or IRQ_ENABLE. That the ports' fields stay is the model's form (assumption 2), that no step
changes the build likewise (assumption 1). -/
def Obligations.CommandsKeepOperandsAndConfiguration : Prop :=
  (∀ (i : Instr) (s t : State), i ≠ .srst → exec i s = .next t →
    t.arg0 = s.arg0 ∧ t.arg1 = s.arg1 ∧ t.arg2 = s.arg2 ∧ t.win = s.win ∧ t.timeout = s.timeout ∧ t.retry = s.retry ∧
    t.mss = s.mss ∧ t.sentLen = s.sentLen ∧ t.sent0 = s.sent0 ∧ t.sent1 = s.sent1 ∧ t.irqEnable = s.irqEnable ∧
    t.agenda = s.agenda ∧ t.resp = s.resp) ∧
  (∀ s t : State, step s = .next t → t.params = s.params)

/-! ## Checksum and codec unit -/

/-- R87, R88: an encoded packet decodes to its sequence number, digest and payload, and is valid. -/
def Obligations.EncodedPacketsDecodeAndAreValid : Prop :=
  ∀ (seq : Word) (p : List Byte),
    (encodePacket seq p).length = 8 + p.length ∧
    decodePacket (encodePacket seq p) = some ⟨seq, digest seq p, p⟩ ∧
    datagramValid (encodePacket seq p) = true

/-- R89: a single flipped bit anywhere in an encoded packet makes it invalid. -/
def Obligations.SingleBitFlipsAreRejected : Prop :=
  ∀ (seq : Word) (p : List Byte) (k : Nat),
    k < 8 * (encodePacket seq p).length → datagramValid (flipBit (encodePacket seq p) k) = false

/-- R90: CK.CRC, whole. -/
def Obligations.CkCrcFollowsItsRule : Prop :=
  encode .ckCrc = 0x00000001 ∧
  ∀ s : State,
    (s.params.pramBytes < s.arg1.toNat + s.arg2.toNat → exec .ckCrc s = .next (s.hostError .badAddr)) ∧
    (∀ d, s.arg1.toNat + s.arg2.toNat ≤ s.params.pramBytes → s.pram.readBytes s.arg1.toNat s.arg2.toNat = some d →
      exec .ckCrc s = .next (s.ends .ok (crc32 d) 0 0))

/-- R91: CK.ENC, whole; after it packet RAM holds Encode(seq, p) at ARG1, and no other byte has changed. -/
def Obligations.CkEncFollowsItsRule : Prop :=
  encode .ckEnc = 0x00000002 ∧
  ∀ s : State,
    (s.mss.toNat < s.arg2.toNat → exec .ckEnc s = .next (s.hostError .badLen)) ∧
    (s.arg2.toNat ≤ s.mss.toNat → s.params.pramBytes < s.arg1.toNat + (8 + s.arg2.toNat) →
      exec .ckEnc s = .next (s.hostError .badAddr)) ∧
    (∀ p, s.arg2.toNat ≤ s.mss.toNat → s.arg1.toNat + (8 + s.arg2.toNat) ≤ s.params.pramBytes →
      s.pram.readBytes (s.arg1.toNat + 8) s.arg2.toNat = some p →
      ∃ m, exec .ckEnc s =
          .next { s.ends .ok (digest s.arg0 p) (BitVec.ofNat 32 (8 + s.arg2.toNat)) 0 with pram := m } ∧
        Memory.readBytes m s.arg1.toNat (8 + s.arg2.toNat) = some (encodePacket s.arg0 p) ∧
        (∀ a, a < s.arg1.toNat ∨ s.arg1.toNat + 8 ≤ a → Memory.read? m a = s.pram.read? a))

/-- R92: CK.DEC, whole. -/
def Obligations.CkDecFollowsItsRule : Prop :=
  encode .ckDec = 0x00000003 ∧
  ∀ s : State,
    (s.params.pramBytes < s.arg1.toNat + s.arg2.toNat → exec .ckDec s = .next (s.hostError .badAddr)) ∧
    (s.arg1.toNat + s.arg2.toNat ≤ s.params.pramBytes → s.arg2.toNat < 8 →
      exec .ckDec s = .next (s.ends .framing 0 0 0)) ∧
    (∀ h, s.arg1.toNat + s.arg2.toNat ≤ s.params.pramBytes → 8 ≤ s.arg2.toNat →
      s.pram.readBytes s.arg1.toNat 8 = some h →
      exec .ckDec s =
        .next (s.ends .ok (wordBE32 (h.take 4)) (wordBE32 (h.drop 4)) (BitVec.ofNat 32 (s.arg2.toNat - 8))))

/-- R93: CK.VFY, whole. -/
def Obligations.CkVfyFollowsItsRule : Prop :=
  encode .ckVfy = 0x00000004 ∧
  ∀ s : State,
    (s.params.pramBytes < s.arg1.toNat + s.arg2.toNat → exec .ckVfy s = .next (s.hostError .badAddr)) ∧
    (s.arg1.toNat + s.arg2.toNat ≤ s.params.pramBytes → s.arg2.toNat < 8 →
      exec .ckVfy s = .next (s.ends .framing 0 0 0)) ∧
    (∀ d seq csum c, s.arg1.toNat + s.arg2.toNat ≤ s.params.pramBytes → 8 ≤ s.arg2.toNat →
      s.pram.readBytes s.arg1.toNat s.arg2.toNat = some d →
      seq = wordBE32 (d.take 4) → csum = wordBE32 ((d.drop 4).take 4) → c = digest seq (d.drop 8) →
      (c = csum → exec .ckVfy s = .next (s.ends .ok 1 c seq)) ∧
      (c ≠ csum → exec .ckVfy s = .next (s.ends .csumMismatch 0 c seq)))

/-! ## Acknowledgment tracker -/

/-- R97, R135: the checks of TX.SEND in their order, each ending the command with its code and no other effect. -/
def Obligations.TxSendRefusesInCheckOrder : Prop :=
  ∀ s : State,
    (s.trkState = .txFailed → exec .txSend s = .next (s.ends .txFailed 0 0 0)) ∧
    (s.trkState = .txClosing ∨ s.trkState = .txDone → exec .txSend s = .next (s.ends .txClosed 0 0 0)) ∧
    (s.trkState = .txOpen →
      (s.mss.toNat < s.arg2.toNat → exec .txSend s = .next (s.hostError .badLen)) ∧
      (s.arg2.toNat ≤ s.mss.toNat →
        (s.params.pramBytes < s.arg1.toNat + (8 + s.arg2.toNat) → exec .txSend s = .next (s.hostError .badAddr)) ∧
        (s.arg1.toNat + (8 + s.arg2.toNat) ≤ s.params.pramBytes →
          (s.nextSeq = 0xFFFFFFFF → exec .txSend s = .next (s.ends .seqExhausted 0 0 0)) ∧
          (s.nextSeq ≠ 0xFFFFFFFF → s.win.toNat ≤ s.trk.countP (·.valid) →
            exec .txSend s = .next (s.ends .windowFull 0 0 0)))))

/-- R95, R96, R97: a TX.SEND that no check stops assigns NEXT_SEQ, writes the header into packet RAM, records the packet in the
lowest free entry, and closes the transfer if the payload is the sentinel; nothing else changes. -/
def Obligations.TxSendRecordsThePacket : Prop :=
  encode .txSend = 0x00000010 ∧
  ∀ (s : State) (p : List Byte) (i : Nat),
    s.trkState = .txOpen → s.arg2.toNat ≤ s.mss.toNat → s.arg1.toNat + (8 + s.arg2.toNat) ≤ s.params.pramBytes →
    s.nextSeq ≠ 0xFFFFFFFF → s.trk.countP (·.valid) < s.win.toNat →
    s.pram.readBytes (s.arg1.toNat + 8) s.arg2.toNat = some p →
    i < s.trk.length → (s.trk.getD i Entry.empty).valid = false →
    (∀ j, j < i → (s.trk.getD j Entry.empty).valid = true) →
    ∃ m, exec .txSend s =
        .next { s.ends .ok s.nextSeq (BitVec.ofNat 32 (8 + s.arg2.toNat)) (digest s.nextSeq p) with
          pram := m
          nextSeq := s.nextSeq + 1
          trkState := if p = s.sentinel then .txClosing else .txOpen
          trk := s.trk.set i
            { valid := true, seq := s.nextSeq, addr := BitVec.ofNat 16 s.arg1.toNat
              len := BitVec.ofNat 17 (8 + s.arg2.toNat), age := 0, retries := 0, rq := false
              sent := decide (p = s.sentinel) } } ∧
      Memory.readBytes m s.arg1.toNat (8 + s.arg2.toNat) = some (encodePacket s.nextSeq p) ∧
      (∀ a, a < s.arg1.toNat ∨ s.arg1.toNat + 8 ≤ a → Memory.read? m a = s.pram.read? a)

/-- R98: TX.ACK, whole: the entry that holds the acknowledged number is cleared, and only that entry. -/
def Obligations.TxAckFollowsItsRule : Prop :=
  encode .txAck = 0x00000011 ∧
  ∀ s : State,
    (s.params.pramBytes < s.arg1.toNat + s.arg2.toNat → exec .txAck s = .next (s.hostError .badAddr)) ∧
    (s.arg1.toNat + s.arg2.toNat ≤ s.params.pramBytes → s.arg2.toNat ≠ 4 →
      exec .txAck s = .next (s.ends .framing 0 0 0)) ∧
    (∀ d seq, s.arg1.toNat + 4 ≤ s.params.pramBytes → s.arg2.toNat = 4 →
      s.pram.readBytes s.arg1.toNat 4 = some d → seq = wordBE32 d →
      (¬ s.pending seq → exec .txAck s = .next (s.ends .staleAck seq 0 0)) ∧
      (∀ i, i < s.trk.length → (s.trk.getD i Entry.empty).valid = true → (s.trk.getD i Entry.empty).seq = seq →
        (∀ j, j < i → (s.trk.getD j Entry.empty).valid = true → (s.trk.getD j Entry.empty).seq ≠ seq) →
        (¬ (s.trkState = .txClosing ∧ (s.trk.set i Entry.empty).countP (·.valid) = 0) →
          exec .txAck s =
            .next { s.ends .ok seq 1 0 with
              trk := s.trk.set i Entry.empty, irqStatus := s.irqStatus ||| 0x08 }) ∧
        (s.trkState = .txClosing ∧ (s.trk.set i Entry.empty).countP (·.valid) = 0 →
          exec .txAck s =
            .next { s.ends .ok seq 1 0 with
              trk := s.trk.set i Entry.empty, trkState := .txDone, irqStatus := s.irqStatus ||| 0x18 })))

/-- R99, R100, R140: the whole of one tick step. In DONE and FAILED it advances TIME and does nothing else. In OPEN and CLOSING it
advances TIME, takes every entry through the rule's scan, adds the number of requests raised to CNT_RETX, sets RETX_REQ exactly if
it raised one, enters FAILED with TX_FAILED exactly if it exhausted an entry, writes FAIL_SEQ only then, and changes nothing else. -/
def Obligations.TickStepAgesEveryEntry : Prop :=
  (∀ s : State, s.trkState = .txDone ∨ s.trkState = .txFailed →
    State.tickStep s = { s with time := s.time + 1 } ∧ s.tickRaised = 0) ∧
  ∀ s : State, s.ticking →
    s.tickRaised = s.trk.countP s.asksRetx ∧
    ∃ (table : List Entry) (fail : Word),
      State.tickStep s = { s with
        time := s.time + 1
        trk := table
        cntRetx := s.cntRetx + BitVec.ofNat 32 (s.trk.countP s.asksRetx)
        trkState := if s.trk.any s.wearsOut then .txFailed else s.trkState
        failSeq := fail
        irqStatus :=
          s.irqStatus ||| (if s.trk.any s.asksRetx then 0x04 else 0) ||| (if s.trk.any s.wearsOut then 0x20 else 0) } ∧
      (s.trk.any s.wearsOut = false → fail = s.failSeq) ∧
      table.length = s.trk.length ∧
      (∀ i, i < s.trk.length →
        ∀ e e' a r, e = s.trk.getD i Entry.empty → e' = table.getD i Entry.empty →
          a = BitVec.ofNat 16 (min (e.age.toNat + 1) 0xFFFF) → r = BitVec.ofNat 16 (min (e.retries.toNat + 1) 0xFFFF) →
          (e.valid = false → e' = e) ∧
          (e.valid = true → a.toNat < s.timeout.toNat → e' = { e with age := a }) ∧
          (e.valid = true → s.timeout.toNat ≤ a.toNat → s.retry ≠ 0 → s.retry.toNat ≤ e.retries.toNat →
            e' = { e with age := a }) ∧
          (e.valid = true → s.timeout.toNat ≤ a.toNat → (s.retry = 0 ∨ e.retries.toNat < s.retry.toNat) →
            e' = { e with retries := r, age := 0, rq := true }))

/-- R99, R100: a tick that exhausts an entry enters FAILED, FAIL_SEQ names the lowest exhausted sequence number, and TX_FAILED is
raised; a tick that exhausts none leaves TRK.state and FAIL_SEQ as they are. -/
def Obligations.TickFailsOnTheLowestExhausted : Prop :=
  ∀ s : State, s.trkState = .txOpen ∨ s.trkState = .txClosing →
    ∀ exhausted : Entry → Prop,
      (∀ e, exhausted e ↔ e ∈ s.trk ∧ e.valid = true ∧ s.timeout.toNat ≤ min (e.age.toNat + 1) 0xFFFF ∧
        s.retry ≠ 0 ∧ s.retry.toNat ≤ e.retries.toNat) →
      ((∃ e, exhausted e) →
        (State.tickStep s).trkState = .txFailed ∧
        (∃ e, exhausted e ∧ e.seq = (State.tickStep s).failSeq) ∧
        (∀ e, exhausted e → (State.tickStep s).failSeq.toNat ≤ e.seq.toNat) ∧
        (State.tickStep s).irqStatus.getLsbD 5 = true) ∧
      ((¬ ∃ e, exhausted e) →
        (State.tickStep s).trkState = s.trkState ∧ (State.tickStep s).failSeq = s.failSeq)

/-- R99: entry i, just recorded or re-armed and below the retry ceiling, only ages through the first TIMEOUT - 1 ticks and raises
its request at the TIMEOUT-th, under any ticks in which the timers run (TRK.state is OPEN or CLOSING before each). -/
def Obligations.EntriesExpireAtTheTimeoutthTick : Prop :=
  ∀ (s : State) (i n : Nat) (e : Entry),
    i < s.trk.length → e = s.trk.getD i Entry.empty → e.valid = true → e.age = 0 → 1 ≤ s.timeout.toNat →
    (s.retry = 0 ∨ e.retries.toNat < s.retry.toNat) →
    (∀ k, k < n → (State.tickStep^[k] s).ticking) →
    (n < s.timeout.toNat → (State.tickStep^[n] s).trk.getD i Entry.empty = { e with age := BitVec.ofNat 16 n }) ∧
    (n = s.timeout.toNat →
      (State.tickStep^[n] s).trk.getD i Entry.empty =
        { e with age := 0, rq := true, retries := BitVec.ofNat 16 (min (e.retries.toNat + 1) 0xFFFF) })

/-- R100: with RETRY = N > 0 the packet of entry i is exhausted by the (N+1) x TIMEOUT-th tick after it was sent, and by none
before, under any ticks in which the timers run (TRK.state is OPEN or CLOSING before each); it has then asked for N
retransmissions, and the machine is FAILED with FAIL_SEQ at most its number. -/
def Obligations.ExhaustionComesAfterRetryPlusOneTimeouts : Prop :=
  ∀ (s : State) (i n : Nat) (e : Entry),
    i < s.trk.length → e = s.trk.getD i Entry.empty → e.valid = true → e.age = 0 → e.retries = 0 →
    1 ≤ s.timeout.toNat → s.retry ≠ 0 →
    (∀ k, k ≤ n → (State.tickStep^[k] s).ticking) →
    (n + 1 < (s.retry.toNat + 1) * s.timeout.toNat →
      (State.tickStep^[n] s).wearsOut ((State.tickStep^[n] s).trk.getD i Entry.empty) = false) ∧
    (n + 1 = (s.retry.toNat + 1) * s.timeout.toNat →
      (State.tickStep^[n] s).wearsOut ((State.tickStep^[n] s).trk.getD i Entry.empty) = true ∧
      ((State.tickStep^[n] s).trk.getD i Entry.empty).retries = s.retry ∧
      (State.tickStep^[n + 1] s).trkState = .txFailed ∧
      (State.tickStep^[n + 1] s).failSeq.toNat ≤ e.seq.toNat)

/-- R102, with the counts of R99: TX.TICK is a tick step that reports the number of requests it raised, which is the number of
entries that expire below the ceiling, and whether it entered FAILED. -/
def Obligations.TxTickReportsItsTickStep : Prop :=
  encode .txTick = 0x00000012 ∧
  ∀ s : State,
    ∃ (r : Nat) (f : Word),
      exec .txTick s = .next (State.ends (State.tickStep s) .ok (BitVec.ofNat 32 r) f 0) ∧
      (s.ticking → r = s.trk.countP s.asksRetx) ∧
      (s.trkState = .txDone ∨ s.trkState = .txFailed → r = 0) ∧
      (f = 0 ∨ f = 1) ∧
      (f = 1 ↔ s.trkState ≠ .txFailed ∧ (State.tickStep s).trkState = .txFailed)

/-- R103: TX.RETX takes the pending request with the lowest sequence number; with none pending it ends with EMPTY. -/
def Obligations.TxRetxTakesTheLowestRequest : Prop :=
  encode .txRetx = 0x00000013 ∧
  ∀ s : State,
    ((∀ e ∈ s.trk, e.valid = true → e.rq = false) → exec .txRetx s = .next (s.ends .empty 0 0 0)) ∧
    (∀ i e, i < s.trk.length → e = s.trk.getD i Entry.empty → e.valid = true → e.rq = true →
      (∀ j, j < s.trk.length → j ≠ i → (s.trk.getD j Entry.empty).valid = true → (s.trk.getD j Entry.empty).rq = true →
        e.seq.toNat < (s.trk.getD j Entry.empty).seq.toNat) →
      exec .txRetx s =
        .next { s.ends .ok e.seq (BitVec.ofNat 32 e.addr.toNat) (BitVec.ofNat 32 e.len.toNat) with
          trk := s.trk.set i { e with rq := false } })

/-- R104: TX.QRY, whole. -/
def Obligations.TxQryFollowsItsRule : Prop :=
  encode .txQry = 0x00000014 ∧
  ∀ s : State,
    (¬ s.pending s.arg0 → exec .txQry s = .next (s.ends .ok 0 0 0)) ∧
    (∀ i e, i < s.trk.length → e = s.trk.getD i Entry.empty → e.valid = true → e.seq = s.arg0 →
      (∀ j, j < i → (s.trk.getD j Entry.empty).valid = true → (s.trk.getD j Entry.empty).seq ≠ s.arg0) →
      exec .txQry s =
        .next (s.ends .ok (BitVec.ofNat 32 (1 + 2 * e.rq.toNat + 4 * e.sent.toNat))
          (BitVec.ofNat 32 e.age.toNat) (BitVec.ofNat 32 e.retries.toNat)))

/-- R105: TX.RST, whole. -/
def Obligations.TxRstFollowsItsRule : Prop :=
  encode .txRst = 0x00000015 ∧
  ∀ s : State,
    exec .txRst s =
      .next { s.ends .ok 0 0 0 with
        trk := List.replicate s.trk.length Entry.empty, trkState := .txOpen, nextSeq := 0, failSeq := 0, cntRetx := 0 }

/-- R94: TRK.state changes only by the rule's four transitions, each by its event and with its interrupt: a TX.SEND whose payload is
the sentinel, which it records as one; a TX.ACK that retires the last entry; a tick that exhausts an entry; a reset. -/
def Obligations.TrkStateChangesOnlyByItsTransitions : Prop :=
  ∀ s t : State, step s = .next t → t.trkState ≠ s.trkState →
    (s.trkState = .txOpen ∧ t.trkState = .txClosing ∧ s.executes .txSend ∧ t.code = .ok ∧
      s.pram.readBytes (s.arg1.toNat + 8) s.arg2.toNat = some s.sentinel ∧
      ∃ e ∈ t.trk, e.valid = true ∧ e.seq = s.nextSeq ∧ e.sent = true) ∨
    (s.trkState = .txClosing ∧ t.trkState = .txDone ∧ s.executes .txAck ∧ t.code = .ok ∧ t.txCount = 0 ∧
      t.irqStatus.getLsbD 4 = true) ∨
    ((s.trkState = .txOpen ∨ s.trkState = .txClosing) ∧ t.trkState = .txFailed ∧
      (s.executes .txTick ∨ s.agenda.head? = some .tick) ∧ s.trk.any s.wearsOut = true ∧ t.irqStatus.getLsbD 5 = true) ∨
    (t.trkState = .txOpen ∧ (s.executes .txRst ∨ s.executes .srst ∨ s.powersOn))

/-- R106: once a sequence number already assigned is not pending, no run of steps without TX.RST, SRST or rst_n makes it pending
again. -/
def Obligations.RetiredPacketsAreNotResurrected : Prop :=
  ∀ (n : Nat) (s t : State) (k : Word),
    BlockInv s → k.toNat < s.nextSeq.toNat → ¬ s.pending k →
    (∀ m u, m < n → Sys2Proof.core.run m s = .next u → ¬ u.executes .txRst ∧ ¬ u.executes .srst ∧ ¬ u.powersOn) →
    Sys2Proof.core.run n s = .next t → ¬ t.pending k

/-- R107: while WIN is not written, the number of pending entries stays within it. -/
def Obligations.WindowBoundIsKept : Prop :=
  ∀ s t : State, BlockInv s → step s = .next t → (∀ v, ¬ s.writes .win v) →
    s.txCount ≤ s.win.toNat → t.txCount ≤ t.win.toNat

/-! ## Reassembly buffer -/

/-- R111, R112, R114: the outcomes of RX.PUT that insert and acknowledge nothing, in check order, with the one counter each
changes. -/
def Obligations.RxPutDropsInCheckOrder : Prop :=
  ∀ s : State,
    (s.params.pramBytes < s.arg1.toNat + s.arg2.toNat → exec .rxPut s = .next (s.hostError .badAddr)) ∧
    (s.arg1.toNat + s.arg2.toNat ≤ s.params.pramBytes →
      (s.ackq.length = s.params.ackqDepth → exec .rxPut s = .next (s.ends .ackqFull 0 0 0)) ∧
      (s.ackq.length ≠ s.params.ackqDepth →
        (s.arg2.toNat < 8 →
          exec .rxPut s = .next { s.ends .framing 0 0 0 with cntFraming := s.cntFraming + 1 }) ∧
        (∀ d seq n, 8 ≤ s.arg2.toNat → s.datagram = some d → seq = wordBE32 (d.take 4) → n = s.arg2.toNat - 8 →
          (s.mss.toNat < n →
            exec .rxPut s =
              .next { s.ends .framing seq (BitVec.ofNat 32 n) 0 with cntFraming := s.cntFraming + 1 }) ∧
          (n ≤ s.mss.toNat → datagramValid d = false →
            exec .rxPut s =
              .next { s.ends .csumMismatch seq (BitVec.ofNat 32 n) 0 with cntCsum := s.cntCsum + 1 }) ∧
          (n ≤ s.mss.toNat → datagramValid d = true →
            (seq = 0xFFFFFFFF ∨ (s.rabState ≠ .complete ∧ s.expSeq.toNat + s.params.rxSlots ≤ seq.toNat)) →
            exec .rxPut s =
              .next { s.ends .outOfRange seq (BitVec.ofNat 32 n) (if d.drop 8 = s.sentinel then 4 else 0) with
                cntRange := s.cntRange + 1
                rabState := if s.rabState = .awaiting then .buffering else s.rabState }))))

/-- R112, R114: a valid datagram that is not ahead is acknowledged; it is inserted unless the transfer is COMPLETE, it is late or
its slot is taken, when it counts as a duplicate; then the delivery loop runs. That the inserted slot keeps its bytes beyond the
payload is the model's choice (assumption 6); the spec leaves them open. -/
def Obligations.RxPutAcknowledgesAndInserts : Prop :=
  encode .rxPut = 0x00000020 ∧
  ∀ (s : State) (d : List Byte) (seq : Word) (n j : Nat) (u : State),
    s.arg1.toNat + s.arg2.toNat ≤ s.params.pramBytes → s.ackq.length ≠ s.params.ackqDepth → 8 ≤ s.arg2.toNat →
    s.datagram = some d → seq = wordBE32 (d.take 4) → n = s.arg2.toNat - 8 → n ≤ s.mss.toNat → datagramValid d = true →
    seq ≠ 0xFFFFFFFF → (s.rabState = .complete ∨ seq.toNat < s.expSeq.toNat + s.params.rxSlots) →
    j = seq.toNat % s.params.rxSlots →
    u = { s.ends s.code seq (BitVec.ofNat 32 n) 0 with
      rabState := if s.rabState = .awaiting then .buffering else s.rabState
      ackq := s.ackq ++ [seq]
      irqStatus := s.irqStatus ||| 0x02 } →
    ((s.rabState = .complete ∨ seq.toNat < s.expSeq.toNat ∨ (s.slot j).valid = true) →
      ∀ v, v = State.drain { u with cntDup := s.cntDup + 1 } →
        exec .rxPut s =
          .next { v.1 with
            code := .duplicate
            res2 := BitVec.ofNat 32 (1 + (if d.drop 8 = s.sentinel then 4 else 0) + 256 * v.2) }) ∧
    ((s.rabState ≠ .complete ∧ s.expSeq.toNat ≤ seq.toNat ∧ (s.slot j).valid = false) →
      ∀ v, v = State.drain
          { u with
            slots := s.slots.set j
              { valid := true, seq := seq, len := BitVec.ofNat 16 n, sent := decide (d.drop 8 = s.sentinel)
                data := d.drop 8 ++ (s.slot j).data.drop n } } →
        exec .rxPut s =
          .next { v.1 with
            code := .ok
            res2 := BitVec.ofNat 32 (3 + (if d.drop 8 = s.sentinel then 4 else 0) + 256 * v.2) })

/-- R113: one turn of the delivery loop: the sentinel completes the transfer, a payload that fits is appended to DLV, and a
payload that does not fit waits. That the cleared slot keeps its data bytes is the model's choice (assumption 6); the spec leaves
them open. -/
def Obligations.DeliveryLoopTurn : Prop :=
  ∀ (s : State) (j : Nat) (x : Slot), j = s.expSeq.toNat % s.params.rxSlots → x = s.slot j →
    (¬ (s.rabState = .buffering ∧ x.valid = true ∧ x.seq = s.expSeq) → s.drainOne = none) ∧
    (s.rabState = .buffering → x.valid = true → x.seq = s.expSeq →
      (x.sent = true →
        s.drainOne = some { s with
          slots := s.slots.set j { valid := false, seq := 0, len := 0, sent := false, data := x.data }
          expSeq := s.expSeq + 1, rabState := .complete, irqStatus := s.irqStatus ||| 0x40 }) ∧
      (x.sent = false → s.params.dlvBytes < s.dlv.length + x.len.toNat → s.drainOne = none) ∧
      (x.sent = false → s.dlv.length + x.len.toNat ≤ s.params.dlvBytes →
        s.drainOne = some { s with
          slots := s.slots.set j { valid := false, seq := 0, len := 0, sent := false, data := x.data }
          expSeq := s.expSeq + 1
          dlv := s.dlv ++ x.data.take x.len.toNat
          rxBytes := s.rxBytes + BitVec.ofNat 32 x.len.toNat
          irqStatus := if x.len = 0 then s.irqStatus else s.irqStatus ||| 0x01 }))

/-- R113: `Drain()` is turns of the loop up to the loop's end: it stops only where no turn is possible, after exactly the turns it
counts. -/
def Obligations.DrainRunsTheLoopToItsEnd : Prop :=
  ∀ s : State,
    (State.drain s).1.drainOne = none ∧
    ∃ path : List State,
      path.length = (State.drain s).2 + 1 ∧ path.head? = some s ∧ path.getLast? = some (State.drain s).1 ∧
      ∀ n, n < (State.drain s).2 → ∃ a b, path[n]? = some a ∧ path[n + 1]? = some b ∧ a.drainOne = some b

/-- R115: RX.POP, whole. -/
def Obligations.RxPopFollowsItsRule : Prop :=
  encode .rxPop = 0x00000021 ∧
  ∀ s : State,
    (s.dlv = [] → exec .rxPop s = .next (s.ends .empty 0 0 0)) ∧
    (∀ b rest t k, s.dlv = b :: rest → State.drain { s.ends s.code 0 0 0 with dlv := rest } = (t, k) →
      exec .rxPop s = .next (t.ends .ok (BitVec.ofNat 32 b.toNat) 1 (BitVec.ofNat 32 k)))

/-- R116: RX.ACKQ, whole: the oldest acknowledgment goes into packet RAM big-endian, and no other byte changes. -/
def Obligations.RxAckqFollowsItsRule : Prop :=
  encode .rxAckq = 0x00000022 ∧
  ∀ s : State,
    (s.params.pramBytes < s.arg1.toNat + 4 → exec .rxAckq s = .next (s.hostError .badAddr)) ∧
    (s.arg1.toNat + 4 ≤ s.params.pramBytes → s.ackq = [] → exec .rxAckq s = .next (s.ends .empty 0 0 0)) ∧
    (∀ seq rest, s.arg1.toNat + 4 ≤ s.params.pramBytes → s.ackq = seq :: rest →
      ∃ m, exec .rxAckq s = .next { s.ends .ok seq 4 0 with ackq := rest, pram := m } ∧
        Memory.readBytes m s.arg1.toNat 4 = some (bytesBE32 seq) ∧
        (∀ a, a < s.arg1.toNat ∨ s.arg1.toNat + 4 ≤ a → Memory.read? m a = s.pram.read? a))

/-- R117: RX.QRY, whole. -/
def Obligations.RxQryFollowsItsRule : Prop :=
  encode .rxQry = 0x00000023 ∧
  ∀ (s : State) (x : Slot), x = s.slot (s.arg0.toNat % s.params.rxSlots) →
    (x.valid = true → x.seq = s.arg0 →
      exec .rxQry s = .next (s.ends .ok 1 (BitVec.ofNat 32 x.len.toNat) (BitVec.ofNat 32 x.sent.toNat))) ∧
    (¬ (x.valid = true ∧ x.seq = s.arg0) → exec .rxQry s = .next (s.ends .ok 0 0 0))

/-- R118: RX.RST, whole; that the cleared slots keep their data bytes is the model's choice (assumption 6); the spec leaves them
open. -/
def Obligations.RxRstFollowsItsRule : Prop :=
  encode .rxRst = 0x00000024 ∧
  ∀ s : State,
    exec .rxRst s =
      .next { s.ends .ok 0 0 0 with
        slots := s.slots.map (fun x => { valid := false, seq := 0, len := 0, sent := false, data := x.data })
        rabState := .awaiting, expSeq := 0, rxBytes := 0, dlv := [], ackq := []
        cntFraming := 0, cntCsum := 0, cntDup := 0, cntRange := 0 }

/-- R110: RAB.state changes only by the rule's transitions. AWAITING is left by an RX.PUT of a datagram whose checksum matches.
BUFFERING is left for COMPLETE by the delivery loop of an RX.PUT or an RX.POP that takes the sentinel, from a slot that held it or
from the datagram just inserted, and RX_COMPLETE is raised; both transitions together only in one RX.PUT. -/
def Obligations.RabStateChangesOnlyByItsTransitions : Prop :=
  ∀ s t : State, step s = .next t → t.rabState ≠ s.rabState →
    (s.rabState = .awaiting ∧ t.rabState = .buffering ∧ s.executes .rxPut ∧
      (t.code = .ok ∨ t.code = .duplicate ∨ t.code = .outOfRange) ∧
      ∃ d, s.datagram = some d ∧ datagramValid d = true) ∨
    ((s.rabState = .awaiting ∨ s.rabState = .buffering) ∧ t.rabState = .complete ∧ s.executes .rxPut ∧
      (t.code = .ok ∨ t.code = .duplicate) ∧ t.irqStatus.getLsbD 6 = true ∧
      ∃ d, s.datagram = some d ∧ datagramValid d = true ∧
        (d.drop 8 = s.sentinel ∨ ∃ x ∈ s.slots, x.valid = true ∧ x.sent = true)) ∨
    (s.rabState = .buffering ∧ t.rabState = .complete ∧ s.executes .rxPop ∧ t.code = .ok ∧ t.irqStatus.getLsbD 6 = true ∧
      ∃ x ∈ s.slots, x.valid = true ∧ x.sent = true) ∨
    (t.rabState = .awaiting ∧ (s.executes .rxRst ∨ s.executes .srst ∨ s.powersOn))

/-- R121: the same datagram fed to RX.PUT again changes neither DLV nor the slots nor the cursor. -/
def Obligations.DuplicateDatagramsDeliverOnce : Prop :=
  ∀ s t u : State, BlockInv s → exec .rxPut s = .next t → exec .rxPut t = .next u →
    u.dlv = t.dlv ∧ u.slots = t.slots ∧ u.expSeq = t.expSeq ∧ u.rabState = t.rabState ∧ u.rxBytes = t.rxBytes ∧
    u.code ≠ .ok

/-- R124: a datagram dropped as FRAMING, CSUM_MISMATCH or OUT_OF_RANGE is not acknowledged; one that ends with OK or DUPLICATE is,
once. -/
def Obligations.DroppedDatagramsAreNotAcknowledged : Prop :=
  ∀ s t : State, exec .rxPut s = .next t →
    (t.code = .framing ∨ t.code = .csumMismatch ∨ t.code = .outOfRange → t.ackq = s.ackq) ∧
    (t.code = .ok ∨ t.code = .duplicate → t.ackq = s.ackq ++ [t.res0])

/-- R120, R125: for one sender transfer (payloads `c 0 .. c (m-1)`, then the sentinel as number m), its stream is an invariant of
every step. RX.RST, SRST and rst_n start it; an RX.PUT of any of its packets, or of a datagram that fails the checksum, keeps it;
RX.POP moves one byte of it to the application, or none where DLV is empty; every step that is none of these keeps it, whichever
bus transaction, tick or other command it is; and in COMPLETE what was popped and what DLV holds are together exactly the payloads
in order. -/
def Obligations.DeliveredBytesAreThePayloadsInOrder : Prop :=
  ∀ (c : Nat → List Byte) (m : Nat), m < 0xFFFFFFFF →
    (∀ s t, BlockInv s → exec .rxRst s = .next t → Stream c m [] t) ∧
    (∀ s t popped, BlockInv s → Stream c m popped s →
      c m = s.sentinel → (∀ k, k < m → c k ≠ s.sentinel) →
      (∀ d, s.datagram = some d →
        datagramValid d = false ∨ ∃ k, k ≤ m ∧ d = encodePacket (BitVec.ofNat 32 k) (c k)) →
      exec .rxPut s = .next t → Stream c m popped t) ∧
    (∀ s t popped b rest, BlockInv s → Stream c m popped s → s.dlv = b :: rest → exec .rxPop s = .next t →
      t.res0 = BitVec.ofNat 32 b.toNat ∧ Stream c m (popped ++ [b]) t) ∧
    (∀ s t popped, Stream c m popped s → s.dlv = [] → exec .rxPop s = .next t → Stream c m popped t) ∧
    (∀ s t, step s = .next t → s.executes .rxRst ∨ s.executes .srst ∨ s.powersOn → Stream c m [] t) ∧
    (∀ s t popped, Stream c m popped s → step s = .next t →
      ¬ s.executes .rxPut → ¬ s.executes .rxPop → ¬ s.executes .rxRst → ¬ s.executes .srst → ¬ s.powersOn →
      Stream c m popped t) ∧
    (∀ s popped, Stream c m popped s → s.rabState = .complete →
      popped ++ s.dlv = ((List.range m).map c).flatten)

/-! ## Control commands and reset -/

/-- R128: NOP, whole. -/
def Obligations.NopFollowsItsRule : Prop :=
  encode .nop = 0x00000030 ∧ ∀ s : State, exec .nop s = .next (s.ends .ok 0 0 0)

/-- R51, R129, R151, R154: SRST and rst_n leave the values of rule R51; SRST leaves packet RAM as it is, rst_n leaves it with no
byte written; no table changes its length. The model's choices: the slots' data bytes stay (assumption 6); rst_n drops the port's
answer and keeps the events to come (assumption 8). -/
def Obligations.ResetsLeaveTheResetValues : Prop :=
  encode .srst = 0x00000031 ∧
  ∀ s : State, ∃ t,
    exec .srst s = .next t ∧ runEvent .powerOn s = .next { t with pram := [], resp := none } ∧
    t.pram = s.pram ∧ t.params = s.params ∧ t.agenda = s.agenda ∧ t.resp = s.resp ∧
    t.arg0 = 0 ∧ t.arg1 = 0 ∧ t.arg2 = 0 ∧ t.res0 = 0 ∧ t.res1 = 0 ∧ t.res2 = 0 ∧ t.code = .ok ∧
    t.rabState = .awaiting ∧ t.trkState = .txOpen ∧ t.win = 1 ∧ t.timeout = 16 ∧ t.retry = 0 ∧
    t.mss = BitVec.ofNat 16 s.params.mssMax ∧ t.sentLen = 0 ∧ t.sent0 = 0 ∧ t.sent1 = 0 ∧
    t.irqStatus = 0 ∧ t.irqEnable = 0 ∧ t.irqO = false ∧
    t.nextSeq = 0 ∧ t.expSeq = 0 ∧ t.failSeq = 0 ∧ t.time = 0 ∧
    t.rxBytes = 0 ∧ t.cntFraming = 0 ∧ t.cntCsum = 0 ∧ t.cntDup = 0 ∧ t.cntRange = 0 ∧ t.cntRetx = 0 ∧
    t.trk = List.replicate s.trk.length Entry.empty ∧
    t.slots = s.slots.map (fun x => { valid := false, seq := 0, len := 0, sent := false, data := x.data }) ∧
    t.dlv = [] ∧ t.ackq = []

/-! ## Whole-machine rules -/

/-- R63, R159: the bytes of packet RAM a command may change: the 8 header bytes at ARG1 for CK.ENC and TX.SEND, the 4 bytes at
ARG1 for RX.ACKQ, and none for any other command. -/
def Obligations.CommandsWriteOnlyTheirPramBytes : Prop :=
  ∀ (i : Instr) (s t : State) (a : Nat), exec i s = .next t →
    (i = .ckEnc ∨ i = .txSend → ¬ (s.arg1.toNat ≤ a ∧ a < s.arg1.toNat + 8) → t.pram.read? a = s.pram.read? a) ∧
    (i = .rxAckq → ¬ (s.arg1.toNat ≤ a ∧ a < s.arg1.toNat + 4) → t.pram.read? a = s.pram.read? a) ∧
    (i ≠ .ckEnc → i ≠ .txSend → i ≠ .rxAckq → t.pram.read? a = s.pram.read? a)

/-- R155: the two directions are independent: no CKU or TRK command touches the receiver, no CKU or RAB command the sender, and
only the tick advances TIME. -/
def Obligations.DirectionsAreIndependent : Prop :=
  ∀ (i : Instr) (s t : State), exec i s = .next t →
    (i ∈ [Instr.ckCrc, .ckEnc, .ckDec, .ckVfy, .txSend, .txAck, .txTick, .txRetx, .txQry, .txRst, .rxQry, .nop] →
      t.rabState = s.rabState ∧ t.slots = s.slots ∧ t.expSeq = s.expSeq ∧ t.dlv = s.dlv ∧ t.ackq = s.ackq ∧
      t.rxBytes = s.rxBytes ∧ t.cntFraming = s.cntFraming ∧ t.cntCsum = s.cntCsum ∧ t.cntDup = s.cntDup ∧
      t.cntRange = s.cntRange) ∧
    (i ∈ [Instr.ckCrc, .ckEnc, .ckDec, .ckVfy, .txQry, .rxPut, .rxPop, .rxAckq, .rxQry, .rxRst, .nop] →
      t.trkState = s.trkState ∧ t.trk = s.trk ∧ t.nextSeq = s.nextSeq ∧ t.failSeq = s.failSeq ∧ t.cntRetx = s.cntRetx) ∧
    (i ≠ .txTick → i ≠ .srst → t.time = s.time)

/-- R136: a command that ends with one of these codes changes nothing but RES0..RES2, STATUS.CODE and, for class H, CMD_ERR; for
FRAMING and CSUM_MISMATCH, all commands but RX.PUT. -/
def Obligations.RefusedCommandsChangeNothing : Prop :=
  ∀ (i : Instr) (s t : State), exec i s = .next t →
    (t.code ∈ [Code.empty, .windowFull, .ackqFull, .txClosed, .txFailed, .seqExhausted, .staleAck] ∨
      (t.code ∈ [Code.framing, .csumMismatch] ∧ i ≠ .rxPut) →
      t = s.ends t.code t.res0 t.res1 t.res2) ∧
    (t.code ∈ [Code.badAddr, .badLen, .illegalCmd] → t = s.hostError t.code)

/-- R132: the codes each command can end with. -/
def Obligations.CommandsEndWithTheirListedCodes : Prop :=
  ∀ (i : Instr) (s t : State), exec i s = .next t →
    (t.code = .empty → i ∈ [Instr.txRetx, .rxPop, .rxAckq]) ∧
    (t.code = .windowFull → i = .txSend) ∧
    (t.code = .framing → i ∈ [Instr.ckDec, .ckVfy, .txAck, .rxPut]) ∧
    (t.code = .csumMismatch → i ∈ [Instr.ckVfy, .rxPut]) ∧
    (t.code = .duplicate → i = .rxPut) ∧
    (t.code = .outOfRange → i = .rxPut) ∧
    (t.code = .staleAck → i = .txAck) ∧
    (t.code = .ackqFull → i = .rxPut) ∧
    (t.code = .txClosed → i = .txSend) ∧
    (t.code = .txFailed → i = .txSend) ∧
    (t.code = .seqExhausted → i = .txSend) ∧
    (t.code = .badAddr → i ∈ [Instr.ckCrc, .ckEnc, .ckDec, .ckVfy, .txSend, .txAck, .rxPut, .rxAckq]) ∧
    (t.code = .badLen → i ∈ [Instr.ckEnc, .txSend]) ∧
    t.code ≠ .illegalCmd

/-- R5, R42, R44, R51: the state after reset of every legal build meets the invariant. -/
def Obligations.ResetMeetsTheInvariant : Prop :=
  BlockInv State.reset ∧ ∀ p : Params, p.legal = true → BlockInv (State.resetOf p)

/-- R42, R44, R119, R123: every command, transaction, tick step and reset keeps the invariant, from every state that meets it. -/
def Obligations.StepKeepsTheInvariant : Prop :=
  ∀ s t : State, BlockInv s → step s = .next t → BlockInv t

/-- R14: every step from a state that meets the invariant completes once packet RAM has been written; without that it stops only
with the refusal of an unwritten read. -/
def Obligations.EveryStepCompletes : Prop :=
  ∀ s : State, BlockInv s →
    Safe s ∧ (∀ r, step s = .refused r → r = .unwrittenPram) ∧ (PramWritten s → ∃ t, step s = .next t)
end

