-- ==== Sys2Proof/Laws/Memory.lean ====
section
/-! SUPPORT. The laws of packet RAM: a read after a write, that a write leaves every other byte alone, that every operation keeps
the canonical form and the offsets that exist, and what byte strings read and write, byte by byte. -/

namespace Sys2Proof.Machine

@[simp] theorem Memory.wf_nil : Memory.wf [] = true := rfl

@[simp] theorem Memory.read?_nil (a : Nat) : Memory.read? [] a = none := rfl

/-- Reading the byte just written. -/
@[simp] theorem Memory.read?_write_same (m : Memory) (a : Nat) (b : Byte) : (m.write a b).read? a = some b := by
  induction m with
  | nil => simp [Memory.write, Memory.read?]
  | cons c rest ih =>
    simp only [Memory.write]
    split
    · simp [Memory.read?]
    · split
      · simp [Memory.read?]
      · rename_i hne
        simp [Memory.read?, hne, ih]

/-- A write leaves every other byte as it was. -/
theorem Memory.read?_write_other (m : Memory) (a x : Nat) (b : Byte) (h : x ≠ a) : (m.write a b).read? x = m.read? x := by
  induction m with
  | nil => simp [Memory.write, Memory.read?, Ne.symm h]
  | cons c rest ih =>
    simp only [Memory.write]
    split
    · simp [Memory.read?, Ne.symm h]
    · split
      · rename_i heq
        simp [Memory.read?, Ne.symm h, heq]
      · simp [Memory.read?, ih]

theorem Memory.read?_write (m : Memory) (a x : Nat) (b : Byte) :
    (m.write a b).read? x = if x = a then some b else m.read? x := by
  split
  · rename_i h; subst h; simp
  · rename_i h; exact Memory.read?_write_other m a x b h

/-- The head of a canonical memory lies below the head of its tail, and the tail is canonical. -/
theorem Memory.wf_cons {c : Host.Cell} {m : Memory} :
    Memory.wf (c :: m) = true ↔ (∀ d ∈ m.head?, c.1 < d.1) ∧ Memory.wf m = true := by
  cases m with
  | nil => simp [Memory.wf]
  | cons d rest => simp [Memory.wf]

theorem Memory.write_head (m : Memory) (a : Nat) (b : Byte) (k : Nat) (hk : k < a) (h : ∀ d ∈ m.head?, k < d.1) :
    ∀ d ∈ (m.write a b).head?, k < d.1 := by
  cases m with
  | nil => simpa [Memory.write] using hk
  | cons c rest =>
    simp only [Memory.write]
    split
    · simpa using hk
    · split
      · simpa using hk
      · simpa using h

/-- A write keeps the canonical form. -/
theorem Memory.wf_write (m : Memory) (a : Nat) (b : Byte) (h : m.wf = true) : (m.write a b).wf = true := by
  induction m with
  | nil => rfl
  | cons c rest ih =>
    have hc := Memory.wf_cons.mp h
    simp only [Memory.write]
    split
    · rename_i hlt
      exact Memory.wf_cons.mpr ⟨by simpa using hlt, h⟩
    · split
      · rename_i _ heq
        exact Memory.wf_cons.mpr ⟨by simpa [heq] using hc.1, hc.2⟩
      · rename_i hlt hne
        exact Memory.wf_cons.mpr ⟨Memory.write_head rest a b c.1 (by omega) hc.1, ih hc.2⟩

/-- A write lists no offset but its own and those listed before. -/
theorem Memory.mem_write {m : Memory} {a : Nat} {b : Byte} {c : Host.Cell} (h : c ∈ m.write a b) : c = (a, b) ∨ c ∈ m := by
  induction m with
  | nil => simpa [Memory.write] using h
  | cons d rest ih =>
    simp only [Memory.write] at h
    split at h
    · simpa using h
    · split at h
      · rcases List.mem_cons.mp h with h | h
        · exact .inl h
        · exact .inr (List.mem_cons_of_mem _ h)
      · rcases List.mem_cons.mp h with h | h
        · exact .inr (h ▸ List.mem_cons_self)
        · exact (ih h).imp id (List.mem_cons_of_mem _)

@[simp] theorem Memory.writeBytes_nil (m : Memory) (a : Nat) : m.writeBytes a [] = m := rfl

theorem Memory.writeBytes_cons (m : Memory) (a : Nat) (b : Byte) (bs : List Byte) :
    m.writeBytes a (b :: bs) = (m.write a b).writeBytes (a + 1) bs := rfl

theorem Memory.writeBytes_append (m : Memory) (a : Nat) (xs ys : List Byte) :
    m.writeBytes a (xs ++ ys) = (m.writeBytes a xs).writeBytes (a + xs.length) ys := by
  induction xs generalizing m a with
  | nil => rfl
  | cons b bs ih =>
    simp only [List.cons_append, Memory.writeBytes_cons, ih, List.length_cons]
    congr 1
    omega

/-- What a byte reads as after a byte string was written. -/
theorem Memory.read?_writeBytes (m : Memory) (a x : Nat) (bs : List Byte) :
    (m.writeBytes a bs).read? x = if a ≤ x ∧ x < a + bs.length then bs[x - a]? else m.read? x := by
  induction bs generalizing m a with
  | nil => simp [Memory.writeBytes]
  | cons b rest ih =>
    rw [Memory.writeBytes_cons, ih, Memory.read?_write]
    simp only [List.length_cons]
    by_cases h1 : x = a
    · subst h1
      have : ¬ (x + 1 ≤ x) := by omega
      simp [this]
    · by_cases h2 : a + 1 ≤ x ∧ x < a + 1 + rest.length
      · obtain ⟨k, hk⟩ : ∃ k, x = a + 1 + k := ⟨x - (a + 1), by omega⟩
        subst hk
        have e1 : a + 1 + k - (a + 1) = k := by omega
        have e2 : a + 1 + k - a = k + 1 := by omega
        have h3 : a ≤ a + 1 + k ∧ a + 1 + k < a + (rest.length + 1) := by omega
        rw [if_pos h2, if_pos h3, e1, e2]
        rfl
      · have h3 : ¬ (a ≤ x ∧ x < a + (rest.length + 1)) := by omega
        rw [if_neg h2, if_neg h3, if_neg h1]

/-- Writing a byte string leaves every byte outside it as it was. -/
theorem Memory.read?_writeBytes_outside (m : Memory) (a x : Nat) (bs : List Byte) (h : x < a ∨ a + bs.length ≤ x) :
    (m.writeBytes a bs).read? x = m.read? x := by
  rw [Memory.read?_writeBytes, if_neg (by omega)]

/-- Writing a byte string keeps the canonical form. -/
theorem Memory.wf_writeBytes (m : Memory) (a : Nat) (bs : List Byte) (h : m.wf = true) : (m.writeBytes a bs).wf = true := by
  induction bs generalizing m a with
  | nil => exact h
  | cons b rest ih => exact ih _ _ (Memory.wf_write m a b h)

/-- A byte string written below a bound lists no offset at or above it that was not listed before. -/
theorem Memory.mem_writeBytes_lt {m : Memory} {a n : Nat} {bs : List Byte} (hm : ∀ c ∈ m, c.1 < n) (h : a + bs.length ≤ n) :
    ∀ c ∈ m.writeBytes a bs, c.1 < n := by
  induction bs generalizing m a with
  | nil => exact hm
  | cons b rest ih =>
    simp only [List.length_cons] at h
    refine ih (fun c hc => ?_) (by omega)
    rcases Memory.mem_write hc with rfl | hc
    · simp only; omega
    · exact hm c hc

@[simp] theorem Memory.readBytes_zero (m : Memory) (a : Nat) : m.readBytes a 0 = some [] := rfl

theorem Memory.readBytes_succ (m : Memory) (a n : Nat) (d : List Byte) :
    m.readBytes a (n + 1) = some d ↔ ∃ b bs, m.read? a = some b ∧ m.readBytes (a + 1) n = some bs ∧ d = b :: bs := by
  simp only [Memory.readBytes]
  cases h1 : m.read? a with
  | none => simp
  | some b =>
    cases h2 : m.readBytes (a + 1) n with
    | none => simp
    | some bs => simp [eq_comm]

/-- A byte string read is as long as was asked for. -/
theorem Memory.length_readBytes {m : Memory} {a n : Nat} {d : List Byte} (h : m.readBytes a n = some d) : d.length = n := by
  induction n generalizing a d with
  | zero => simp at h; simp [← h]
  | succ n ih =>
    obtain ⟨b, bs, _, h2, rfl⟩ := (Memory.readBytes_succ m a n d).mp h
    simp [ih h2]

/-- A byte string reads exactly when each of its bytes has a value, and holds those values in order. -/
theorem Memory.readBytes_eq_some (m : Memory) (a n : Nat) (d : List Byte) :
    m.readBytes a n = some d ↔ d.length = n ∧ ∀ k, k < n → m.read? (a + k) = d[k]? := by
  induction n generalizing a d with
  | zero => cases d <;> simp
  | succ n ih =>
    rw [Memory.readBytes_succ]
    constructor
    · rintro ⟨b, bs, h1, h2, rfl⟩
      obtain ⟨hl, hk⟩ := (ih (a + 1) bs).mp h2
      refine ⟨by simp [hl], fun k hkn => ?_⟩
      cases k with
      | zero => simpa using h1
      | succ k =>
        have := hk k (by omega)
        rw [show a + (k + 1) = a + 1 + k by omega, this]
        simp
    · rintro ⟨hl, hk⟩
      cases d with
      | nil => simp at hl
      | cons b bs =>
        refine ⟨b, bs, by simpa using hk 0 (by omega), (ih (a + 1) bs).mpr ⟨by simpa using hl, fun k hkn => ?_⟩, rfl⟩
        have := hk (k + 1) (by omega)
        rw [show a + 1 + k = a + (k + 1) by omega, this]
        simp

/-- A byte string does not read exactly when one of its bytes has no value. -/
theorem Memory.readBytes_eq_none (m : Memory) (a n : Nat) :
    m.readBytes a n = none ↔ ∃ k, k < n ∧ m.read? (a + k) = none := by
  induction n generalizing a with
  | zero => simp
  | succ n ih =>
    have hs : m.readBytes a (n + 1) = none ↔ m.read? a = none ∨ m.readBytes (a + 1) n = none := by
      simp only [Memory.readBytes]
      cases m.read? a with
      | none => simp
      | some b => cases m.readBytes (a + 1) n <;> simp
    rw [hs, ih]
    constructor
    · rintro (h | ⟨k, hk, h⟩)
      · exact ⟨0, by omega, h⟩
      · exact ⟨k + 1, by omega, by rw [← h]; congr 1; omega⟩
    · rintro ⟨k, hk, h⟩
      cases k with
      | zero => exact .inl h
      | succ k => exact .inr ⟨k, by omega, by rw [← h]; congr 1; omega⟩

/-- Equal bytes read equal strings. -/
theorem Memory.readBytes_congr {m m' : Memory} {a n : Nat} (h : ∀ k, k < n → m'.read? (a + k) = m.read? (a + k)) :
    m'.readBytes a n = m.readBytes a n := by
  cases hm : m.readBytes a n with
  | none =>
    obtain ⟨k, hk, hn⟩ := (Memory.readBytes_eq_none m a n).mp hm
    exact (Memory.readBytes_eq_none m' a n).mpr ⟨k, hk, (h k hk).trans hn⟩
  | some d =>
    obtain ⟨hl, hk⟩ := (Memory.readBytes_eq_some m a n d).mp hm
    exact (Memory.readBytes_eq_some m' a n d).mpr ⟨hl, fun k hkn => (h k hkn).trans (hk k hkn)⟩

/-- A byte string reads back as it was written. -/
theorem Memory.readBytes_writeBytes (m : Memory) (a : Nat) (bs : List Byte) :
    (m.writeBytes a bs).readBytes a bs.length = some bs := by
  refine (Memory.readBytes_eq_some _ _ _ _).mpr ⟨rfl, fun k hk => ?_⟩
  rw [Memory.read?_writeBytes, if_pos (by omega)]
  congr 1
  omega

/-- Two adjacent strings read as one. -/
theorem Memory.readBytes_append {m : Memory} {a n k : Nat} {d e : List Byte} (h1 : m.readBytes a n = some d)
    (h2 : m.readBytes (a + n) k = some e) : m.readBytes a (n + k) = some (d ++ e) := by
  obtain ⟨l1, r1⟩ := (Memory.readBytes_eq_some m a n d).mp h1
  obtain ⟨l2, r2⟩ := (Memory.readBytes_eq_some m (a + n) k e).mp h2
  refine (Memory.readBytes_eq_some m a (n + k) (d ++ e)).mpr ⟨by simp [l1, l2], fun j hj => ?_⟩
  by_cases hjn : j < n
  · rw [r1 j hjn, List.getElem?_append_left (by omega)]
  · have := r2 (j - n) (by omega)
    rw [show a + n + (j - n) = a + j by omega] at this
    rw [this, List.getElem?_append_right (by omega), l1]

end Sys2Proof.Machine
end

