-- ==== Sys2Proof/Laws/State.lean ====
section
/-! SUPPORT. The updates of State that the meanings share, one lemma per field and update, each true by rfl: a proof about a
command then never unfolds a record update. -/

namespace Sys2Proof.Machine

/-! ### prologue -/

@[simp] theorem State.prologue_params (s : State) : s.prologue.params = s.params := rfl
@[simp] theorem State.prologue_arg0 (s : State) : s.prologue.arg0 = s.arg0 := rfl
@[simp] theorem State.prologue_arg1 (s : State) : s.prologue.arg1 = s.arg1 := rfl
@[simp] theorem State.prologue_arg2 (s : State) : s.prologue.arg2 = s.arg2 := rfl
@[simp] theorem State.prologue_res0 (s : State) : s.prologue.res0 = 0 := rfl
@[simp] theorem State.prologue_res1 (s : State) : s.prologue.res1 = 0 := rfl
@[simp] theorem State.prologue_res2 (s : State) : s.prologue.res2 = 0 := rfl
@[simp] theorem State.prologue_code (s : State) : s.prologue.code = s.code := rfl
@[simp] theorem State.prologue_win (s : State) : s.prologue.win = s.win := rfl
@[simp] theorem State.prologue_timeout (s : State) : s.prologue.timeout = s.timeout := rfl
@[simp] theorem State.prologue_retry (s : State) : s.prologue.retry = s.retry := rfl
@[simp] theorem State.prologue_mss (s : State) : s.prologue.mss = s.mss := rfl
@[simp] theorem State.prologue_sentLen (s : State) : s.prologue.sentLen = s.sentLen := rfl
@[simp] theorem State.prologue_sent0 (s : State) : s.prologue.sent0 = s.sent0 := rfl
@[simp] theorem State.prologue_sent1 (s : State) : s.prologue.sent1 = s.sent1 := rfl
@[simp] theorem State.prologue_irqStatus (s : State) : s.prologue.irqStatus = s.irqStatus := rfl
@[simp] theorem State.prologue_irqEnable (s : State) : s.prologue.irqEnable = s.irqEnable := rfl
@[simp] theorem State.prologue_nextSeq (s : State) : s.prologue.nextSeq = s.nextSeq := rfl
@[simp] theorem State.prologue_expSeq (s : State) : s.prologue.expSeq = s.expSeq := rfl
@[simp] theorem State.prologue_failSeq (s : State) : s.prologue.failSeq = s.failSeq := rfl
@[simp] theorem State.prologue_time (s : State) : s.prologue.time = s.time := rfl
@[simp] theorem State.prologue_rxBytes (s : State) : s.prologue.rxBytes = s.rxBytes := rfl
@[simp] theorem State.prologue_cntFraming (s : State) : s.prologue.cntFraming = s.cntFraming := rfl
@[simp] theorem State.prologue_cntCsum (s : State) : s.prologue.cntCsum = s.cntCsum := rfl
@[simp] theorem State.prologue_cntDup (s : State) : s.prologue.cntDup = s.cntDup := rfl
@[simp] theorem State.prologue_cntRange (s : State) : s.prologue.cntRange = s.cntRange := rfl
@[simp] theorem State.prologue_cntRetx (s : State) : s.prologue.cntRetx = s.cntRetx := rfl
@[simp] theorem State.prologue_trkState (s : State) : s.prologue.trkState = s.trkState := rfl
@[simp] theorem State.prologue_trk (s : State) : s.prologue.trk = s.trk := rfl
@[simp] theorem State.prologue_rabState (s : State) : s.prologue.rabState = s.rabState := rfl
@[simp] theorem State.prologue_slots (s : State) : s.prologue.slots = s.slots := rfl
@[simp] theorem State.prologue_dlv (s : State) : s.prologue.dlv = s.dlv := rfl
@[simp] theorem State.prologue_ackq (s : State) : s.prologue.ackq = s.ackq := rfl
@[simp] theorem State.prologue_pram (s : State) : s.prologue.pram = s.pram := rfl
@[simp] theorem State.prologue_agenda (s : State) : s.prologue.agenda = s.agenda := rfl
@[simp] theorem State.prologue_resp (s : State) : s.prologue.resp = s.resp := rfl

/-! ### setRes -/

@[simp] theorem State.setRes_params (s : State) (a b c : Word) : (s.setRes a b c).params = s.params := rfl
@[simp] theorem State.setRes_arg0 (s : State) (a b c : Word) : (s.setRes a b c).arg0 = s.arg0 := rfl
@[simp] theorem State.setRes_arg1 (s : State) (a b c : Word) : (s.setRes a b c).arg1 = s.arg1 := rfl
@[simp] theorem State.setRes_arg2 (s : State) (a b c : Word) : (s.setRes a b c).arg2 = s.arg2 := rfl
@[simp] theorem State.setRes_res0 (s : State) (a b c : Word) : (s.setRes a b c).res0 = a := rfl
@[simp] theorem State.setRes_res1 (s : State) (a b c : Word) : (s.setRes a b c).res1 = b := rfl
@[simp] theorem State.setRes_res2 (s : State) (a b c : Word) : (s.setRes a b c).res2 = c := rfl
@[simp] theorem State.setRes_code (s : State) (a b c : Word) : (s.setRes a b c).code = s.code := rfl
@[simp] theorem State.setRes_win (s : State) (a b c : Word) : (s.setRes a b c).win = s.win := rfl
@[simp] theorem State.setRes_timeout (s : State) (a b c : Word) : (s.setRes a b c).timeout = s.timeout := rfl
@[simp] theorem State.setRes_retry (s : State) (a b c : Word) : (s.setRes a b c).retry = s.retry := rfl
@[simp] theorem State.setRes_mss (s : State) (a b c : Word) : (s.setRes a b c).mss = s.mss := rfl
@[simp] theorem State.setRes_sentLen (s : State) (a b c : Word) : (s.setRes a b c).sentLen = s.sentLen := rfl
@[simp] theorem State.setRes_sent0 (s : State) (a b c : Word) : (s.setRes a b c).sent0 = s.sent0 := rfl
@[simp] theorem State.setRes_sent1 (s : State) (a b c : Word) : (s.setRes a b c).sent1 = s.sent1 := rfl
@[simp] theorem State.setRes_irqStatus (s : State) (a b c : Word) : (s.setRes a b c).irqStatus = s.irqStatus := rfl
@[simp] theorem State.setRes_irqEnable (s : State) (a b c : Word) : (s.setRes a b c).irqEnable = s.irqEnable := rfl
@[simp] theorem State.setRes_nextSeq (s : State) (a b c : Word) : (s.setRes a b c).nextSeq = s.nextSeq := rfl
@[simp] theorem State.setRes_expSeq (s : State) (a b c : Word) : (s.setRes a b c).expSeq = s.expSeq := rfl
@[simp] theorem State.setRes_failSeq (s : State) (a b c : Word) : (s.setRes a b c).failSeq = s.failSeq := rfl
@[simp] theorem State.setRes_time (s : State) (a b c : Word) : (s.setRes a b c).time = s.time := rfl
@[simp] theorem State.setRes_rxBytes (s : State) (a b c : Word) : (s.setRes a b c).rxBytes = s.rxBytes := rfl
@[simp] theorem State.setRes_cntFraming (s : State) (a b c : Word) : (s.setRes a b c).cntFraming = s.cntFraming := rfl
@[simp] theorem State.setRes_cntCsum (s : State) (a b c : Word) : (s.setRes a b c).cntCsum = s.cntCsum := rfl
@[simp] theorem State.setRes_cntDup (s : State) (a b c : Word) : (s.setRes a b c).cntDup = s.cntDup := rfl
@[simp] theorem State.setRes_cntRange (s : State) (a b c : Word) : (s.setRes a b c).cntRange = s.cntRange := rfl
@[simp] theorem State.setRes_cntRetx (s : State) (a b c : Word) : (s.setRes a b c).cntRetx = s.cntRetx := rfl
@[simp] theorem State.setRes_trkState (s : State) (a b c : Word) : (s.setRes a b c).trkState = s.trkState := rfl
@[simp] theorem State.setRes_trk (s : State) (a b c : Word) : (s.setRes a b c).trk = s.trk := rfl
@[simp] theorem State.setRes_rabState (s : State) (a b c : Word) : (s.setRes a b c).rabState = s.rabState := rfl
@[simp] theorem State.setRes_slots (s : State) (a b c : Word) : (s.setRes a b c).slots = s.slots := rfl
@[simp] theorem State.setRes_dlv (s : State) (a b c : Word) : (s.setRes a b c).dlv = s.dlv := rfl
@[simp] theorem State.setRes_ackq (s : State) (a b c : Word) : (s.setRes a b c).ackq = s.ackq := rfl
@[simp] theorem State.setRes_pram (s : State) (a b c : Word) : (s.setRes a b c).pram = s.pram := rfl
@[simp] theorem State.setRes_agenda (s : State) (a b c : Word) : (s.setRes a b c).agenda = s.agenda := rfl
@[simp] theorem State.setRes_resp (s : State) (a b c : Word) : (s.setRes a b c).resp = s.resp := rfl

/-! ### irq -/

@[simp] theorem State.irq_params (b : IrqBit) (s : State) : (State.irq b s).params = s.params := rfl
@[simp] theorem State.irq_arg0 (b : IrqBit) (s : State) : (State.irq b s).arg0 = s.arg0 := rfl
@[simp] theorem State.irq_arg1 (b : IrqBit) (s : State) : (State.irq b s).arg1 = s.arg1 := rfl
@[simp] theorem State.irq_arg2 (b : IrqBit) (s : State) : (State.irq b s).arg2 = s.arg2 := rfl
@[simp] theorem State.irq_res0 (b : IrqBit) (s : State) : (State.irq b s).res0 = s.res0 := rfl
@[simp] theorem State.irq_res1 (b : IrqBit) (s : State) : (State.irq b s).res1 = s.res1 := rfl
@[simp] theorem State.irq_res2 (b : IrqBit) (s : State) : (State.irq b s).res2 = s.res2 := rfl
@[simp] theorem State.irq_code (b : IrqBit) (s : State) : (State.irq b s).code = s.code := rfl
@[simp] theorem State.irq_win (b : IrqBit) (s : State) : (State.irq b s).win = s.win := rfl
@[simp] theorem State.irq_timeout (b : IrqBit) (s : State) : (State.irq b s).timeout = s.timeout := rfl
@[simp] theorem State.irq_retry (b : IrqBit) (s : State) : (State.irq b s).retry = s.retry := rfl
@[simp] theorem State.irq_mss (b : IrqBit) (s : State) : (State.irq b s).mss = s.mss := rfl
@[simp] theorem State.irq_sentLen (b : IrqBit) (s : State) : (State.irq b s).sentLen = s.sentLen := rfl
@[simp] theorem State.irq_sent0 (b : IrqBit) (s : State) : (State.irq b s).sent0 = s.sent0 := rfl
@[simp] theorem State.irq_sent1 (b : IrqBit) (s : State) : (State.irq b s).sent1 = s.sent1 := rfl
@[simp] theorem State.irq_irqStatus (b : IrqBit) (s : State) : (State.irq b s).irqStatus = s.irqStatus ||| b.mask := rfl
@[simp] theorem State.irq_irqEnable (b : IrqBit) (s : State) : (State.irq b s).irqEnable = s.irqEnable := rfl
@[simp] theorem State.irq_nextSeq (b : IrqBit) (s : State) : (State.irq b s).nextSeq = s.nextSeq := rfl
@[simp] theorem State.irq_expSeq (b : IrqBit) (s : State) : (State.irq b s).expSeq = s.expSeq := rfl
@[simp] theorem State.irq_failSeq (b : IrqBit) (s : State) : (State.irq b s).failSeq = s.failSeq := rfl
@[simp] theorem State.irq_time (b : IrqBit) (s : State) : (State.irq b s).time = s.time := rfl
@[simp] theorem State.irq_rxBytes (b : IrqBit) (s : State) : (State.irq b s).rxBytes = s.rxBytes := rfl
@[simp] theorem State.irq_cntFraming (b : IrqBit) (s : State) : (State.irq b s).cntFraming = s.cntFraming := rfl
@[simp] theorem State.irq_cntCsum (b : IrqBit) (s : State) : (State.irq b s).cntCsum = s.cntCsum := rfl
@[simp] theorem State.irq_cntDup (b : IrqBit) (s : State) : (State.irq b s).cntDup = s.cntDup := rfl
@[simp] theorem State.irq_cntRange (b : IrqBit) (s : State) : (State.irq b s).cntRange = s.cntRange := rfl
@[simp] theorem State.irq_cntRetx (b : IrqBit) (s : State) : (State.irq b s).cntRetx = s.cntRetx := rfl
@[simp] theorem State.irq_trkState (b : IrqBit) (s : State) : (State.irq b s).trkState = s.trkState := rfl
@[simp] theorem State.irq_trk (b : IrqBit) (s : State) : (State.irq b s).trk = s.trk := rfl
@[simp] theorem State.irq_rabState (b : IrqBit) (s : State) : (State.irq b s).rabState = s.rabState := rfl
@[simp] theorem State.irq_slots (b : IrqBit) (s : State) : (State.irq b s).slots = s.slots := rfl
@[simp] theorem State.irq_dlv (b : IrqBit) (s : State) : (State.irq b s).dlv = s.dlv := rfl
@[simp] theorem State.irq_ackq (b : IrqBit) (s : State) : (State.irq b s).ackq = s.ackq := rfl
@[simp] theorem State.irq_pram (b : IrqBit) (s : State) : (State.irq b s).pram = s.pram := rfl
@[simp] theorem State.irq_agenda (b : IrqBit) (s : State) : (State.irq b s).agenda = s.agenda := rfl
@[simp] theorem State.irq_resp (b : IrqBit) (s : State) : (State.irq b s).resp = s.resp := rfl

/-! ### complete -/

@[simp] theorem State.complete_params (c : Code) (s : State) : (s.complete c).params = s.params := rfl
@[simp] theorem State.complete_arg0 (c : Code) (s : State) : (s.complete c).arg0 = s.arg0 := rfl
@[simp] theorem State.complete_arg1 (c : Code) (s : State) : (s.complete c).arg1 = s.arg1 := rfl
@[simp] theorem State.complete_arg2 (c : Code) (s : State) : (s.complete c).arg2 = s.arg2 := rfl
@[simp] theorem State.complete_res0 (c : Code) (s : State) : (s.complete c).res0 = s.res0 := rfl
@[simp] theorem State.complete_res1 (c : Code) (s : State) : (s.complete c).res1 = s.res1 := rfl
@[simp] theorem State.complete_res2 (c : Code) (s : State) : (s.complete c).res2 = s.res2 := rfl
@[simp] theorem State.complete_code (c : Code) (s : State) : (s.complete c).code = c := rfl
@[simp] theorem State.complete_win (c : Code) (s : State) : (s.complete c).win = s.win := rfl
@[simp] theorem State.complete_timeout (c : Code) (s : State) : (s.complete c).timeout = s.timeout := rfl
@[simp] theorem State.complete_retry (c : Code) (s : State) : (s.complete c).retry = s.retry := rfl
@[simp] theorem State.complete_mss (c : Code) (s : State) : (s.complete c).mss = s.mss := rfl
@[simp] theorem State.complete_sentLen (c : Code) (s : State) : (s.complete c).sentLen = s.sentLen := rfl
@[simp] theorem State.complete_sent0 (c : Code) (s : State) : (s.complete c).sent0 = s.sent0 := rfl
@[simp] theorem State.complete_sent1 (c : Code) (s : State) : (s.complete c).sent1 = s.sent1 := rfl
@[simp] theorem State.complete_irqStatus (c : Code) (s : State) : (s.complete c).irqStatus = if c.hostError then s.irqStatus ||| IrqBit.cmdErr.mask else s.irqStatus := rfl
@[simp] theorem State.complete_irqEnable (c : Code) (s : State) : (s.complete c).irqEnable = s.irqEnable := rfl
@[simp] theorem State.complete_nextSeq (c : Code) (s : State) : (s.complete c).nextSeq = s.nextSeq := rfl
@[simp] theorem State.complete_expSeq (c : Code) (s : State) : (s.complete c).expSeq = s.expSeq := rfl
@[simp] theorem State.complete_failSeq (c : Code) (s : State) : (s.complete c).failSeq = s.failSeq := rfl
@[simp] theorem State.complete_time (c : Code) (s : State) : (s.complete c).time = s.time := rfl
@[simp] theorem State.complete_rxBytes (c : Code) (s : State) : (s.complete c).rxBytes = s.rxBytes := rfl
@[simp] theorem State.complete_cntFraming (c : Code) (s : State) : (s.complete c).cntFraming = s.cntFraming := rfl
@[simp] theorem State.complete_cntCsum (c : Code) (s : State) : (s.complete c).cntCsum = s.cntCsum := rfl
@[simp] theorem State.complete_cntDup (c : Code) (s : State) : (s.complete c).cntDup = s.cntDup := rfl
@[simp] theorem State.complete_cntRange (c : Code) (s : State) : (s.complete c).cntRange = s.cntRange := rfl
@[simp] theorem State.complete_cntRetx (c : Code) (s : State) : (s.complete c).cntRetx = s.cntRetx := rfl
@[simp] theorem State.complete_trkState (c : Code) (s : State) : (s.complete c).trkState = s.trkState := rfl
@[simp] theorem State.complete_trk (c : Code) (s : State) : (s.complete c).trk = s.trk := rfl
@[simp] theorem State.complete_rabState (c : Code) (s : State) : (s.complete c).rabState = s.rabState := rfl
@[simp] theorem State.complete_slots (c : Code) (s : State) : (s.complete c).slots = s.slots := rfl
@[simp] theorem State.complete_dlv (c : Code) (s : State) : (s.complete c).dlv = s.dlv := rfl
@[simp] theorem State.complete_ackq (c : Code) (s : State) : (s.complete c).ackq = s.ackq := rfl
@[simp] theorem State.complete_pram (c : Code) (s : State) : (s.complete c).pram = s.pram := rfl
@[simp] theorem State.complete_agenda (c : Code) (s : State) : (s.complete c).agenda = s.agenda := rfl
@[simp] theorem State.complete_resp (c : Code) (s : State) : (s.complete c).resp = s.resp := rfl

/-! ### memWrite -/

@[simp] theorem State.memWrite_params (s : State) (o : Nat) (bs : List Byte) : (s.memWrite o bs).params = s.params := rfl
@[simp] theorem State.memWrite_arg0 (s : State) (o : Nat) (bs : List Byte) : (s.memWrite o bs).arg0 = s.arg0 := rfl
@[simp] theorem State.memWrite_arg1 (s : State) (o : Nat) (bs : List Byte) : (s.memWrite o bs).arg1 = s.arg1 := rfl
@[simp] theorem State.memWrite_arg2 (s : State) (o : Nat) (bs : List Byte) : (s.memWrite o bs).arg2 = s.arg2 := rfl
@[simp] theorem State.memWrite_res0 (s : State) (o : Nat) (bs : List Byte) : (s.memWrite o bs).res0 = s.res0 := rfl
@[simp] theorem State.memWrite_res1 (s : State) (o : Nat) (bs : List Byte) : (s.memWrite o bs).res1 = s.res1 := rfl
@[simp] theorem State.memWrite_res2 (s : State) (o : Nat) (bs : List Byte) : (s.memWrite o bs).res2 = s.res2 := rfl
@[simp] theorem State.memWrite_code (s : State) (o : Nat) (bs : List Byte) : (s.memWrite o bs).code = s.code := rfl
@[simp] theorem State.memWrite_win (s : State) (o : Nat) (bs : List Byte) : (s.memWrite o bs).win = s.win := rfl
@[simp] theorem State.memWrite_timeout (s : State) (o : Nat) (bs : List Byte) : (s.memWrite o bs).timeout = s.timeout := rfl
@[simp] theorem State.memWrite_retry (s : State) (o : Nat) (bs : List Byte) : (s.memWrite o bs).retry = s.retry := rfl
@[simp] theorem State.memWrite_mss (s : State) (o : Nat) (bs : List Byte) : (s.memWrite o bs).mss = s.mss := rfl
@[simp] theorem State.memWrite_sentLen (s : State) (o : Nat) (bs : List Byte) : (s.memWrite o bs).sentLen = s.sentLen := rfl
@[simp] theorem State.memWrite_sent0 (s : State) (o : Nat) (bs : List Byte) : (s.memWrite o bs).sent0 = s.sent0 := rfl
@[simp] theorem State.memWrite_sent1 (s : State) (o : Nat) (bs : List Byte) : (s.memWrite o bs).sent1 = s.sent1 := rfl
@[simp] theorem State.memWrite_irqStatus (s : State) (o : Nat) (bs : List Byte) : (s.memWrite o bs).irqStatus = s.irqStatus := rfl
@[simp] theorem State.memWrite_irqEnable (s : State) (o : Nat) (bs : List Byte) : (s.memWrite o bs).irqEnable = s.irqEnable := rfl
@[simp] theorem State.memWrite_nextSeq (s : State) (o : Nat) (bs : List Byte) : (s.memWrite o bs).nextSeq = s.nextSeq := rfl
@[simp] theorem State.memWrite_expSeq (s : State) (o : Nat) (bs : List Byte) : (s.memWrite o bs).expSeq = s.expSeq := rfl
@[simp] theorem State.memWrite_failSeq (s : State) (o : Nat) (bs : List Byte) : (s.memWrite o bs).failSeq = s.failSeq := rfl
@[simp] theorem State.memWrite_time (s : State) (o : Nat) (bs : List Byte) : (s.memWrite o bs).time = s.time := rfl
@[simp] theorem State.memWrite_rxBytes (s : State) (o : Nat) (bs : List Byte) : (s.memWrite o bs).rxBytes = s.rxBytes := rfl
@[simp] theorem State.memWrite_cntFraming (s : State) (o : Nat) (bs : List Byte) : (s.memWrite o bs).cntFraming = s.cntFraming := rfl
@[simp] theorem State.memWrite_cntCsum (s : State) (o : Nat) (bs : List Byte) : (s.memWrite o bs).cntCsum = s.cntCsum := rfl
@[simp] theorem State.memWrite_cntDup (s : State) (o : Nat) (bs : List Byte) : (s.memWrite o bs).cntDup = s.cntDup := rfl
@[simp] theorem State.memWrite_cntRange (s : State) (o : Nat) (bs : List Byte) : (s.memWrite o bs).cntRange = s.cntRange := rfl
@[simp] theorem State.memWrite_cntRetx (s : State) (o : Nat) (bs : List Byte) : (s.memWrite o bs).cntRetx = s.cntRetx := rfl
@[simp] theorem State.memWrite_trkState (s : State) (o : Nat) (bs : List Byte) : (s.memWrite o bs).trkState = s.trkState := rfl
@[simp] theorem State.memWrite_trk (s : State) (o : Nat) (bs : List Byte) : (s.memWrite o bs).trk = s.trk := rfl
@[simp] theorem State.memWrite_rabState (s : State) (o : Nat) (bs : List Byte) : (s.memWrite o bs).rabState = s.rabState := rfl
@[simp] theorem State.memWrite_slots (s : State) (o : Nat) (bs : List Byte) : (s.memWrite o bs).slots = s.slots := rfl
@[simp] theorem State.memWrite_dlv (s : State) (o : Nat) (bs : List Byte) : (s.memWrite o bs).dlv = s.dlv := rfl
@[simp] theorem State.memWrite_ackq (s : State) (o : Nat) (bs : List Byte) : (s.memWrite o bs).ackq = s.ackq := rfl
@[simp] theorem State.memWrite_pram (s : State) (o : Nat) (bs : List Byte) : (s.memWrite o bs).pram = s.pram.writeBytes o bs := rfl
@[simp] theorem State.memWrite_agenda (s : State) (o : Nat) (bs : List Byte) : (s.memWrite o bs).agenda = s.agenda := rfl
@[simp] theorem State.memWrite_resp (s : State) (o : Nat) (bs : List Byte) : (s.memWrite o bs).resp = s.resp := rfl

/-! ### respond -/

@[simp] theorem State.respond_params (s : State) (e : Bool) (w : Word) : (s.respond e w).params = s.params := rfl
@[simp] theorem State.respond_arg0 (s : State) (e : Bool) (w : Word) : (s.respond e w).arg0 = s.arg0 := rfl
@[simp] theorem State.respond_arg1 (s : State) (e : Bool) (w : Word) : (s.respond e w).arg1 = s.arg1 := rfl
@[simp] theorem State.respond_arg2 (s : State) (e : Bool) (w : Word) : (s.respond e w).arg2 = s.arg2 := rfl
@[simp] theorem State.respond_res0 (s : State) (e : Bool) (w : Word) : (s.respond e w).res0 = s.res0 := rfl
@[simp] theorem State.respond_res1 (s : State) (e : Bool) (w : Word) : (s.respond e w).res1 = s.res1 := rfl
@[simp] theorem State.respond_res2 (s : State) (e : Bool) (w : Word) : (s.respond e w).res2 = s.res2 := rfl
@[simp] theorem State.respond_code (s : State) (e : Bool) (w : Word) : (s.respond e w).code = s.code := rfl
@[simp] theorem State.respond_win (s : State) (e : Bool) (w : Word) : (s.respond e w).win = s.win := rfl
@[simp] theorem State.respond_timeout (s : State) (e : Bool) (w : Word) : (s.respond e w).timeout = s.timeout := rfl
@[simp] theorem State.respond_retry (s : State) (e : Bool) (w : Word) : (s.respond e w).retry = s.retry := rfl
@[simp] theorem State.respond_mss (s : State) (e : Bool) (w : Word) : (s.respond e w).mss = s.mss := rfl
@[simp] theorem State.respond_sentLen (s : State) (e : Bool) (w : Word) : (s.respond e w).sentLen = s.sentLen := rfl
@[simp] theorem State.respond_sent0 (s : State) (e : Bool) (w : Word) : (s.respond e w).sent0 = s.sent0 := rfl
@[simp] theorem State.respond_sent1 (s : State) (e : Bool) (w : Word) : (s.respond e w).sent1 = s.sent1 := rfl
@[simp] theorem State.respond_irqStatus (s : State) (e : Bool) (w : Word) : (s.respond e w).irqStatus = s.irqStatus := rfl
@[simp] theorem State.respond_irqEnable (s : State) (e : Bool) (w : Word) : (s.respond e w).irqEnable = s.irqEnable := rfl
@[simp] theorem State.respond_nextSeq (s : State) (e : Bool) (w : Word) : (s.respond e w).nextSeq = s.nextSeq := rfl
@[simp] theorem State.respond_expSeq (s : State) (e : Bool) (w : Word) : (s.respond e w).expSeq = s.expSeq := rfl
@[simp] theorem State.respond_failSeq (s : State) (e : Bool) (w : Word) : (s.respond e w).failSeq = s.failSeq := rfl
@[simp] theorem State.respond_time (s : State) (e : Bool) (w : Word) : (s.respond e w).time = s.time := rfl
@[simp] theorem State.respond_rxBytes (s : State) (e : Bool) (w : Word) : (s.respond e w).rxBytes = s.rxBytes := rfl
@[simp] theorem State.respond_cntFraming (s : State) (e : Bool) (w : Word) : (s.respond e w).cntFraming = s.cntFraming := rfl
@[simp] theorem State.respond_cntCsum (s : State) (e : Bool) (w : Word) : (s.respond e w).cntCsum = s.cntCsum := rfl
@[simp] theorem State.respond_cntDup (s : State) (e : Bool) (w : Word) : (s.respond e w).cntDup = s.cntDup := rfl
@[simp] theorem State.respond_cntRange (s : State) (e : Bool) (w : Word) : (s.respond e w).cntRange = s.cntRange := rfl
@[simp] theorem State.respond_cntRetx (s : State) (e : Bool) (w : Word) : (s.respond e w).cntRetx = s.cntRetx := rfl
@[simp] theorem State.respond_trkState (s : State) (e : Bool) (w : Word) : (s.respond e w).trkState = s.trkState := rfl
@[simp] theorem State.respond_trk (s : State) (e : Bool) (w : Word) : (s.respond e w).trk = s.trk := rfl
@[simp] theorem State.respond_rabState (s : State) (e : Bool) (w : Word) : (s.respond e w).rabState = s.rabState := rfl
@[simp] theorem State.respond_slots (s : State) (e : Bool) (w : Word) : (s.respond e w).slots = s.slots := rfl
@[simp] theorem State.respond_dlv (s : State) (e : Bool) (w : Word) : (s.respond e w).dlv = s.dlv := rfl
@[simp] theorem State.respond_ackq (s : State) (e : Bool) (w : Word) : (s.respond e w).ackq = s.ackq := rfl
@[simp] theorem State.respond_pram (s : State) (e : Bool) (w : Word) : (s.respond e w).pram = s.pram := rfl
@[simp] theorem State.respond_agenda (s : State) (e : Bool) (w : Word) : (s.respond e w).agenda = s.agenda := rfl
@[simp] theorem State.respond_resp (s : State) (e : Bool) (w : Word) : (s.respond e w).resp = some ⟨e, w⟩ := rfl

/-! ### heard -/

@[simp] theorem State.heard_params (s : State) : s.heard.params = s.params := rfl
@[simp] theorem State.heard_arg0 (s : State) : s.heard.arg0 = s.arg0 := rfl
@[simp] theorem State.heard_arg1 (s : State) : s.heard.arg1 = s.arg1 := rfl
@[simp] theorem State.heard_arg2 (s : State) : s.heard.arg2 = s.arg2 := rfl
@[simp] theorem State.heard_res0 (s : State) : s.heard.res0 = s.res0 := rfl
@[simp] theorem State.heard_res1 (s : State) : s.heard.res1 = s.res1 := rfl
@[simp] theorem State.heard_res2 (s : State) : s.heard.res2 = s.res2 := rfl
@[simp] theorem State.heard_code (s : State) : s.heard.code = s.code := rfl
@[simp] theorem State.heard_win (s : State) : s.heard.win = s.win := rfl
@[simp] theorem State.heard_timeout (s : State) : s.heard.timeout = s.timeout := rfl
@[simp] theorem State.heard_retry (s : State) : s.heard.retry = s.retry := rfl
@[simp] theorem State.heard_mss (s : State) : s.heard.mss = s.mss := rfl
@[simp] theorem State.heard_sentLen (s : State) : s.heard.sentLen = s.sentLen := rfl
@[simp] theorem State.heard_sent0 (s : State) : s.heard.sent0 = s.sent0 := rfl
@[simp] theorem State.heard_sent1 (s : State) : s.heard.sent1 = s.sent1 := rfl
@[simp] theorem State.heard_irqStatus (s : State) : s.heard.irqStatus = s.irqStatus := rfl
@[simp] theorem State.heard_irqEnable (s : State) : s.heard.irqEnable = s.irqEnable := rfl
@[simp] theorem State.heard_nextSeq (s : State) : s.heard.nextSeq = s.nextSeq := rfl
@[simp] theorem State.heard_expSeq (s : State) : s.heard.expSeq = s.expSeq := rfl
@[simp] theorem State.heard_failSeq (s : State) : s.heard.failSeq = s.failSeq := rfl
@[simp] theorem State.heard_time (s : State) : s.heard.time = s.time := rfl
@[simp] theorem State.heard_rxBytes (s : State) : s.heard.rxBytes = s.rxBytes := rfl
@[simp] theorem State.heard_cntFraming (s : State) : s.heard.cntFraming = s.cntFraming := rfl
@[simp] theorem State.heard_cntCsum (s : State) : s.heard.cntCsum = s.cntCsum := rfl
@[simp] theorem State.heard_cntDup (s : State) : s.heard.cntDup = s.cntDup := rfl
@[simp] theorem State.heard_cntRange (s : State) : s.heard.cntRange = s.cntRange := rfl
@[simp] theorem State.heard_cntRetx (s : State) : s.heard.cntRetx = s.cntRetx := rfl
@[simp] theorem State.heard_trkState (s : State) : s.heard.trkState = s.trkState := rfl
@[simp] theorem State.heard_trk (s : State) : s.heard.trk = s.trk := rfl
@[simp] theorem State.heard_rabState (s : State) : s.heard.rabState = if s.rabState = .awaiting then .buffering else s.rabState := rfl
@[simp] theorem State.heard_slots (s : State) : s.heard.slots = s.slots := rfl
@[simp] theorem State.heard_dlv (s : State) : s.heard.dlv = s.dlv := rfl
@[simp] theorem State.heard_ackq (s : State) : s.heard.ackq = s.ackq := rfl
@[simp] theorem State.heard_pram (s : State) : s.heard.pram = s.pram := rfl
@[simp] theorem State.heard_agenda (s : State) : s.heard.agenda = s.agenda := rfl
@[simp] theorem State.heard_resp (s : State) : s.heard.resp = s.resp := rfl

/-! ### pushAck -/

@[simp] theorem State.pushAck_params (s : State) (q : Word) : (s.pushAck q).params = s.params := rfl
@[simp] theorem State.pushAck_arg0 (s : State) (q : Word) : (s.pushAck q).arg0 = s.arg0 := rfl
@[simp] theorem State.pushAck_arg1 (s : State) (q : Word) : (s.pushAck q).arg1 = s.arg1 := rfl
@[simp] theorem State.pushAck_arg2 (s : State) (q : Word) : (s.pushAck q).arg2 = s.arg2 := rfl
@[simp] theorem State.pushAck_res0 (s : State) (q : Word) : (s.pushAck q).res0 = s.res0 := rfl
@[simp] theorem State.pushAck_res1 (s : State) (q : Word) : (s.pushAck q).res1 = s.res1 := rfl
@[simp] theorem State.pushAck_res2 (s : State) (q : Word) : (s.pushAck q).res2 = s.res2 := rfl
@[simp] theorem State.pushAck_code (s : State) (q : Word) : (s.pushAck q).code = s.code := rfl
@[simp] theorem State.pushAck_win (s : State) (q : Word) : (s.pushAck q).win = s.win := rfl
@[simp] theorem State.pushAck_timeout (s : State) (q : Word) : (s.pushAck q).timeout = s.timeout := rfl
@[simp] theorem State.pushAck_retry (s : State) (q : Word) : (s.pushAck q).retry = s.retry := rfl
@[simp] theorem State.pushAck_mss (s : State) (q : Word) : (s.pushAck q).mss = s.mss := rfl
@[simp] theorem State.pushAck_sentLen (s : State) (q : Word) : (s.pushAck q).sentLen = s.sentLen := rfl
@[simp] theorem State.pushAck_sent0 (s : State) (q : Word) : (s.pushAck q).sent0 = s.sent0 := rfl
@[simp] theorem State.pushAck_sent1 (s : State) (q : Word) : (s.pushAck q).sent1 = s.sent1 := rfl
@[simp] theorem State.pushAck_irqStatus (s : State) (q : Word) : (s.pushAck q).irqStatus = s.irqStatus ||| IrqBit.ackqAvail.mask := rfl
@[simp] theorem State.pushAck_irqEnable (s : State) (q : Word) : (s.pushAck q).irqEnable = s.irqEnable := rfl
@[simp] theorem State.pushAck_nextSeq (s : State) (q : Word) : (s.pushAck q).nextSeq = s.nextSeq := rfl
@[simp] theorem State.pushAck_expSeq (s : State) (q : Word) : (s.pushAck q).expSeq = s.expSeq := rfl
@[simp] theorem State.pushAck_failSeq (s : State) (q : Word) : (s.pushAck q).failSeq = s.failSeq := rfl
@[simp] theorem State.pushAck_time (s : State) (q : Word) : (s.pushAck q).time = s.time := rfl
@[simp] theorem State.pushAck_rxBytes (s : State) (q : Word) : (s.pushAck q).rxBytes = s.rxBytes := rfl
@[simp] theorem State.pushAck_cntFraming (s : State) (q : Word) : (s.pushAck q).cntFraming = s.cntFraming := rfl
@[simp] theorem State.pushAck_cntCsum (s : State) (q : Word) : (s.pushAck q).cntCsum = s.cntCsum := rfl
@[simp] theorem State.pushAck_cntDup (s : State) (q : Word) : (s.pushAck q).cntDup = s.cntDup := rfl
@[simp] theorem State.pushAck_cntRange (s : State) (q : Word) : (s.pushAck q).cntRange = s.cntRange := rfl
@[simp] theorem State.pushAck_cntRetx (s : State) (q : Word) : (s.pushAck q).cntRetx = s.cntRetx := rfl
@[simp] theorem State.pushAck_trkState (s : State) (q : Word) : (s.pushAck q).trkState = s.trkState := rfl
@[simp] theorem State.pushAck_trk (s : State) (q : Word) : (s.pushAck q).trk = s.trk := rfl
@[simp] theorem State.pushAck_rabState (s : State) (q : Word) : (s.pushAck q).rabState = s.rabState := rfl
@[simp] theorem State.pushAck_slots (s : State) (q : Word) : (s.pushAck q).slots = s.slots := rfl
@[simp] theorem State.pushAck_dlv (s : State) (q : Word) : (s.pushAck q).dlv = s.dlv := rfl
@[simp] theorem State.pushAck_ackq (s : State) (q : Word) : (s.pushAck q).ackq = s.ackq ++ [q] := rfl
@[simp] theorem State.pushAck_pram (s : State) (q : Word) : (s.pushAck q).pram = s.pram := rfl
@[simp] theorem State.pushAck_agenda (s : State) (q : Word) : (s.pushAck q).agenda = s.agenda := rfl
@[simp] theorem State.pushAck_resp (s : State) (q : Word) : (s.pushAck q).resp = s.resp := rfl

/-! ### consume -/

@[simp] theorem State.consume_params (s : State) : s.consume.params = s.params := rfl
@[simp] theorem State.consume_arg0 (s : State) : s.consume.arg0 = s.arg0 := rfl
@[simp] theorem State.consume_arg1 (s : State) : s.consume.arg1 = s.arg1 := rfl
@[simp] theorem State.consume_arg2 (s : State) : s.consume.arg2 = s.arg2 := rfl
@[simp] theorem State.consume_res0 (s : State) : s.consume.res0 = s.res0 := rfl
@[simp] theorem State.consume_res1 (s : State) : s.consume.res1 = s.res1 := rfl
@[simp] theorem State.consume_res2 (s : State) : s.consume.res2 = s.res2 := rfl
@[simp] theorem State.consume_code (s : State) : s.consume.code = s.code := rfl
@[simp] theorem State.consume_win (s : State) : s.consume.win = s.win := rfl
@[simp] theorem State.consume_timeout (s : State) : s.consume.timeout = s.timeout := rfl
@[simp] theorem State.consume_retry (s : State) : s.consume.retry = s.retry := rfl
@[simp] theorem State.consume_mss (s : State) : s.consume.mss = s.mss := rfl
@[simp] theorem State.consume_sentLen (s : State) : s.consume.sentLen = s.sentLen := rfl
@[simp] theorem State.consume_sent0 (s : State) : s.consume.sent0 = s.sent0 := rfl
@[simp] theorem State.consume_sent1 (s : State) : s.consume.sent1 = s.sent1 := rfl
@[simp] theorem State.consume_irqStatus (s : State) : s.consume.irqStatus = s.irqStatus := rfl
@[simp] theorem State.consume_irqEnable (s : State) : s.consume.irqEnable = s.irqEnable := rfl
@[simp] theorem State.consume_nextSeq (s : State) : s.consume.nextSeq = s.nextSeq := rfl
@[simp] theorem State.consume_expSeq (s : State) : s.consume.expSeq = s.expSeq + 1 := rfl
@[simp] theorem State.consume_failSeq (s : State) : s.consume.failSeq = s.failSeq := rfl
@[simp] theorem State.consume_time (s : State) : s.consume.time = s.time := rfl
@[simp] theorem State.consume_rxBytes (s : State) : s.consume.rxBytes = s.rxBytes := rfl
@[simp] theorem State.consume_cntFraming (s : State) : s.consume.cntFraming = s.cntFraming := rfl
@[simp] theorem State.consume_cntCsum (s : State) : s.consume.cntCsum = s.cntCsum := rfl
@[simp] theorem State.consume_cntDup (s : State) : s.consume.cntDup = s.cntDup := rfl
@[simp] theorem State.consume_cntRange (s : State) : s.consume.cntRange = s.cntRange := rfl
@[simp] theorem State.consume_cntRetx (s : State) : s.consume.cntRetx = s.cntRetx := rfl
@[simp] theorem State.consume_trkState (s : State) : s.consume.trkState = s.trkState := rfl
@[simp] theorem State.consume_trk (s : State) : s.consume.trk = s.trk := rfl
@[simp] theorem State.consume_rabState (s : State) : s.consume.rabState = s.rabState := rfl
@[simp] theorem State.consume_slots (s : State) : s.consume.slots = s.slots.set (s.slotIndex s.expSeq) (s.slot (s.slotIndex s.expSeq)).clear := rfl
@[simp] theorem State.consume_dlv (s : State) : s.consume.dlv = s.dlv := rfl
@[simp] theorem State.consume_ackq (s : State) : s.consume.ackq = s.ackq := rfl
@[simp] theorem State.consume_pram (s : State) : s.consume.pram = s.pram := rfl
@[simp] theorem State.consume_agenda (s : State) : s.consume.agenda = s.agenda := rfl
@[simp] theorem State.consume_resp (s : State) : s.consume.resp = s.resp := rfl

end Sys2Proof.Machine
end

