-- ==== Sys2Proof/Laws/Ops.lean ====
section
/-! SUPPORT. One lemma per shared operation of the commands: what `finish` and `MemRead` can answer, the two byte orders, and the
packet header in packet RAM. -/

namespace Sys2Proof.Machine

/-- `finish` always ends with a next state, the completed one. -/
@[simp] theorem finish_eq (c : Code) (s : State) : finish c s = .next (s.complete c) := rfl

theorem inRange_iff (s : State) (a n : Nat) : s.inRange a n = true ↔ a + n ≤ s.params.pramBytes := by
  simp [State.inRange]

theorem inRange_false (s : State) (a n : Nat) : s.inRange a n = false ↔ s.params.pramBytes < a + n := by
  simp [State.inRange]

/-- What a MemRead can answer: the bytes are there and the rest of the rule answers, or it is the refusal of an unwritten read. -/
theorem memRead_cases (s : State) (a n : Nat) (k : List Byte → Result) :
    (∃ d, s.pram.readBytes a n = some d ∧ s.memRead a n k = k d) ∨
    (s.pram.readBytes a n = none ∧ s.memRead a n k = .refused .unwrittenPram) := by
  unfold State.memRead
  cases s.pram.readBytes a n with
  | none => exact .inr ⟨rfl, rfl⟩
  | some d => exact .inl ⟨d, rfl, rfl⟩

theorem memRead_some {s : State} {a n : Nat} {d : List Byte} (h : s.pram.readBytes a n = some d) (k : List Byte → Result) :
    s.memRead a n k = k d := by
  simp [State.memRead, h]

theorem memRead_none {s : State} {a n : Nat} (h : s.pram.readBytes a n = none) (k : List Byte → Result) :
    s.memRead a n k = .refused .unwrittenPram := by
  simp [State.memRead, h]

theorem memRead_next {s t : State} {a n : Nat} {k : List Byte → Result} (h : s.memRead a n k = .next t) :
    ∃ d, s.pram.readBytes a n = some d ∧ k d = .next t := by
  rcases memRead_cases s a n k with ⟨d, h1, h2⟩ | ⟨_, h2⟩
  · exact ⟨d, h1, h2 ▸ h⟩
  · rw [h2] at h; nomatch h

@[simp] theorem length_bytesBE32 (v : Word) : (bytesBE32 v).length = 4 := rfl

/-- A word written big-endian reads back (rule R10). -/
@[simp] theorem wordBE32_bytesBE32 (v : Word) : wordBE32 (bytesBE32 v) = v := by
  apply BitVec.eq_of_getLsbD_eq
  intro i hi
  simp only [wordBE32, bytesBE32, List.foldl]
  simp
  have b1 : i - 8 < 32 := by omega
  have b2 : i - 8 - 8 < 32 := by omega
  have b3 : i - 8 - 8 - 8 < 32 := by omega
  have h4 : i < 8 ∨ (8 ≤ i ∧ i < 16) ∨ (16 ≤ i ∧ i < 24) ∨ (24 ≤ i ∧ i < 32) := by omega
  rcases h4 with h | ⟨h1, h2⟩ | ⟨h1, h2⟩ | ⟨h1, h2⟩
  · have : ¬ (8 ≤ i) := by omega
    simp [h, hi]
  · have a1 : ¬ (i < 8) := by omega
    have a2 : i - 8 < 8 := by omega
    have a3 : 8 + (i - 8) = i := by omega
    simp [a1, a2, a3, hi, b1]
  · have a1 : ¬ (i < 8) := by omega
    have a2 : ¬ (i - 8 < 8) := by omega
    have a4 : i - 8 - 8 < 8 := by omega
    have a5 : 16 + (i - 8 - 8) = i := by omega
    simp [a1, a2, a4, a5, hi, b1, b2]
  · have a1 : ¬ (i < 8) := by omega
    have a2 : ¬ (i - 8 < 8) := by omega
    have a4 : ¬ (i - 8 - 8 < 8) := by omega
    have a6 : i - 8 - 8 - 8 < 8 := by omega
    have a5 : 24 + (i - 8 - 8 - 8) = i := by omega
    simp [a1, a2, a4, a5, a6, hi, b1, b2, b3]

/-- The header is one string of 8 bytes: the sequence number, then the checksum (rule R60). -/
theorem writeHeader_eq (s : State) (base : Nat) (seq c : Word) :
    s.writeHeader base seq c = s.memWrite base (bytesBE32 seq ++ bytesBE32 c) := by
  simp [State.writeHeader, State.memWrite, Memory.writeBytes_append]

/-- A header leaves every byte outside its 8 as it was. -/
theorem read?_writeHeader_outside (s : State) (base a : Nat) (seq c : Word) (h : a < base ∨ base + 8 ≤ a) :
    (s.writeHeader base seq c).pram.read? a = s.pram.read? a := by
  rw [writeHeader_eq, State.memWrite_pram]
  exact Memory.read?_writeBytes_outside _ _ _ _ (by simpa using h)

/-- A header before a payload already in packet RAM makes one packet (rules R60, R91, R97). -/
theorem readBytes_writeHeader (s : State) (base n : Nat) (seq c : Word) (p : List Byte)
    (h : s.pram.readBytes (base + 8) n = some p) :
    (s.writeHeader base seq c).pram.readBytes base (8 + n) = some (bytesBE32 seq ++ bytesBE32 c ++ p) := by
  rw [writeHeader_eq, State.memWrite_pram]
  refine Memory.readBytes_append (n := 8) ?_ ?_
  · exact Memory.readBytes_writeBytes s.pram base (bytesBE32 seq ++ bytesBE32 c)
  · rw [← h]
    exact Memory.readBytes_congr fun k _ => Memory.read?_writeBytes_outside _ _ _ _ (.inr (by simp))

/-- The header, field by field: only packet RAM changes. -/
theorem writeHeader_frame (s : State) (base : Nat) (seq c : Word) :
    s.writeHeader base seq c = { s with pram := (s.writeHeader base seq c).pram } := rfl

@[simp] theorem length_lanesOfWord (v : Word) (n : Nat) : (lanesOfWord v n).length = n := by
  induction n generalizing v with
  | zero => rfl
  | succ n ih => simp [lanesOfWord, ih]

/-- Lane k of a bus write is byte k of the word (rule R58). -/
theorem getElem?_lanesOfWord (v : Word) (n k : Nat) (h : k < n) : (lanesOfWord v n)[k]? = some (v.extractLsb' (8 * k) 8) := by
  induction n generalizing v k with
  | zero => omega
  | succ n ih =>
    cases k with
    | zero => simp [lanesOfWord]
    | succ k =>
      simp only [lanesOfWord, List.getElem?_cons_succ]
      rw [ih (v >>> 8) k (by omega)]
      congr 1
      apply BitVec.eq_of_getLsbD_eq
      intro i hi
      simp [hi]
      congr 1
      omega

end Sys2Proof.Machine
end

