-- ==== Sys2Proof/Laws/Rab.lean ====
section
/-! SUPPORT. The delivery loop and the slot table: what one turn of the loop can do, an induction over the loop packaged once, what
a turn leaves alone, and reading a slot after one was stored. -/

namespace Sys2Proof.Machine

/-- Everything one turn of the delivery loop can do (rule R113). -/
theorem drainOne_cases (s : State) :
    (s.drainOne = none ∧
      ¬ (s.rabState = .buffering ∧ (s.slot (s.slotIndex s.expSeq)).valid = true ∧
        (s.slot (s.slotIndex s.expSeq)).seq = s.expSeq)) ∨
    (s.rabState = .buffering ∧ (s.slot (s.slotIndex s.expSeq)).valid = true ∧
      (s.slot (s.slotIndex s.expSeq)).seq = s.expSeq ∧
      (((s.slot (s.slotIndex s.expSeq)).sent = true ∧
          s.drainOne = some (State.irq .rxComplete { s.consume with rabState := .complete })) ∨
        ((s.slot (s.slotIndex s.expSeq)).sent = false ∧
          s.params.dlvBytes < s.dlv.length + (s.slot (s.slotIndex s.expSeq)).len.toNat ∧ s.drainOne = none) ∨
        ((s.slot (s.slotIndex s.expSeq)).sent = false ∧
          s.dlv.length + (s.slot (s.slotIndex s.expSeq)).len.toNat ≤ s.params.dlvBytes ∧
          s.drainOne = some
            { s.consume with
              dlv := s.dlv ++ (s.slot (s.slotIndex s.expSeq)).payload
              rxBytes := s.rxBytes + (s.slot (s.slotIndex s.expSeq)).len.zeroExtend 32
              irqStatus := if (s.slot (s.slotIndex s.expSeq)).len = 0 then s.irqStatus
                else s.irqStatus ||| IrqBit.dlvAvail.mask }))) := by
  unfold State.drainOne
  by_cases h : s.rabState = .buffering ∧ (s.slot (s.slotIndex s.expSeq)).valid = true ∧
      (s.slot (s.slotIndex s.expSeq)).seq = s.expSeq
  · refine .inr ⟨h.1, h.2.1, h.2.2, ?_⟩
    simp only [h, and_self, if_true]
    cases hs : (s.slot (s.slotIndex s.expSeq)).sent with
    | true => exact .inl ⟨rfl, by simp⟩
    | false =>
      refine .inr ?_
      by_cases hf : s.params.dlvBytes < s.dlv.length + (s.slot (s.slotIndex s.expSeq)).len.toNat
      · exact .inl ⟨rfl, hf, by simp [hf]⟩
      · exact .inr ⟨rfl, by omega, by simp [hf]⟩
  · exact .inl ⟨by simp [h], h⟩

/-- A turn that happens: the cursor's slot is consumed, in one of two ways. -/
theorem drainOne_some {s t : State} (h : s.drainOne = some t) :
    s.rabState = .buffering ∧ (s.slot (s.slotIndex s.expSeq)).valid = true ∧
    (s.slot (s.slotIndex s.expSeq)).seq = s.expSeq ∧
    (((s.slot (s.slotIndex s.expSeq)).sent = true ∧
        t = State.irq .rxComplete { s.consume with rabState := .complete }) ∨
      ((s.slot (s.slotIndex s.expSeq)).sent = false ∧
        s.dlv.length + (s.slot (s.slotIndex s.expSeq)).len.toNat ≤ s.params.dlvBytes ∧
        t = { s.consume with
          dlv := s.dlv ++ (s.slot (s.slotIndex s.expSeq)).payload
          rxBytes := s.rxBytes + (s.slot (s.slotIndex s.expSeq)).len.zeroExtend 32
          irqStatus := if (s.slot (s.slotIndex s.expSeq)).len = 0 then s.irqStatus
            else s.irqStatus ||| IrqBit.dlvAvail.mask })) := by
  rcases drainOne_cases s with ⟨h0, _⟩ | ⟨h1, h2, h3, ⟨h4, h5⟩ | ⟨_, _, h5⟩ | ⟨h4, h6, h5⟩⟩
  · rw [h0] at h; nomatch h
  · rw [h5] at h; exact ⟨h1, h2, h3, .inl ⟨h4, (Option.some.inj h).symm⟩⟩
  · rw [h5] at h; nomatch h
  · rw [h5] at h; exact ⟨h1, h2, h3, .inr ⟨h4, h6, (Option.some.inj h).symm⟩⟩

/-- A turn of the loop touches only the receiver: the slots, the cursor, DLV, RX_BYTES, RAB.state and IRQ_STATUS. -/
theorem drainOne_frame {s t : State} (h : s.drainOne = some t) :
    t = { s with
      slots := t.slots, expSeq := t.expSeq, dlv := t.dlv, rxBytes := t.rxBytes, rabState := t.rabState
      irqStatus := t.irqStatus } := by
  obtain ⟨_, _, _, ⟨_, rfl⟩ | ⟨_, _, rfl⟩⟩ := drainOne_some h <;> rfl

/-- No bit of IRQ_STATUS is cleared by a turn of the loop (rule R141). -/
theorem drainOne_irq {s t : State} (h : s.drainOne = some t) (k : Nat) (hk : s.irqStatus.getLsbD k = true) :
    t.irqStatus.getLsbD k = true := by
  obtain ⟨_, _, _, ⟨_, rfl⟩ | ⟨_, _, rfl⟩⟩ := drainOne_some h
  · simp [State.irq, State.consume, hk]
  · simp only
    split <;> simp [hk]

@[simp] theorem drainFrom_zero (s : State) : s.drainFrom 0 = (s, 0) := rfl

theorem drainFrom_none {s : State} (h : s.drainOne = none) (f : Nat) : s.drainFrom f = (s, 0) := by
  cases f <;> simp [State.drainFrom, h]

theorem drainFrom_some {s t : State} (h : s.drainOne = some t) (f : Nat) :
    s.drainFrom (f + 1) = ((t.drainFrom f).1, (t.drainFrom f).2 + 1) := by
  simp [State.drainFrom, h]

/-- The induction over the delivery loop: what every turn keeps, the loop keeps. -/
theorem drainFrom_induct {P : State → Prop} (hstep : ∀ a b, P a → a.drainOne = some b → P b) (f : Nat) (s : State) (h : P s) :
    P (s.drainFrom f).1 := by
  induction f generalizing s with
  | zero => exact h
  | succ f ih =>
    cases hd : s.drainOne with
    | none => rw [drainFrom_none hd]; exact h
    | some t => rw [drainFrom_some hd]; exact ih t (hstep s t h hd)

theorem drain_induct {P : State → Prop} (hstep : ∀ a b, P a → a.drainOne = some b → P b) (s : State) (h : P s) : P s.drain.1 :=
  drainFrom_induct hstep _ s h

/-- With nothing to do the loop changes nothing. -/
theorem drain_none {s : State} (h : s.drainOne = none) : s.drain = (s, 0) := drainFrom_none h _

/-- The delivery loop touches only the receiver. -/
theorem drain_frame (s : State) :
    s.drain.1 = { s with
      slots := s.drain.1.slots, expSeq := s.drain.1.expSeq, dlv := s.drain.1.dlv, rxBytes := s.drain.1.rxBytes
      rabState := s.drain.1.rabState, irqStatus := s.drain.1.irqStatus } := by
  refine drain_induct (P := fun t => t = { s with
      slots := t.slots, expSeq := t.expSeq, dlv := t.dlv, rxBytes := t.rxBytes, rabState := t.rabState
      irqStatus := t.irqStatus }) (fun a b ha hb => ?_) s rfl
  have hf := drainOne_frame hb
  rw [ha] at hf
  exact hf

/-- The delivery loop clears no bit of IRQ_STATUS. -/
theorem drain_irq (s : State) (k : Nat) (hk : s.irqStatus.getLsbD k = true) : s.drain.1.irqStatus.getLsbD k = true :=
  drain_induct (P := fun t => t.irqStatus.getLsbD k = true) (fun _ _ ha hb => drainOne_irq hb k ha) s hk

/-- Reading slot k after slot j was stored. -/
theorem slot_set (s : State) (j k : Nat) (x : Slot) (hj : j < s.slots.length) :
    State.slot { s with slots := s.slots.set j x } k = if k = j then x else s.slot k := by
  simp only [State.slot, List.getD_eq_getElem?_getD, List.getElem?_set]
  by_cases h : k = j
  · subst h; simp [hj]
  · simp [h, Ne.symm h]

/-- A slot that is valid stands in the table. -/
theorem lt_of_slot_valid {s : State} {j : Nat} (h : (s.slot j).valid = true) : j < s.slots.length := by
  by_contra hn
  simp [State.slot, List.getD_eq_getElem?_getD, List.getElem?_eq_none (Nat.le_of_not_lt hn), Slot.empty] at h

@[simp] theorem clear_valid (x : Slot) : x.clear.valid = false := rfl
@[simp] theorem clear_seq (x : Slot) : x.clear.seq = 0 := rfl
@[simp] theorem clear_len (x : Slot) : x.clear.len = 0 := rfl
@[simp] theorem clear_sent (x : Slot) : x.clear.sent = false := rfl
@[simp] theorem clear_data (x : Slot) : x.clear.data = x.data := rfl

/-- What a slot holds right after an insertion is the payload inserted. -/
theorem payload_insert (x : Slot) (seq : Word) (p : List Byte) (sent : Bool) (h : p.length < 2 ^ 16) :
    (x.insert seq p sent).payload = p := by
  have hm : p.length % 65536 = p.length := Nat.mod_eq_of_lt h
  simp [Slot.insert, Slot.payload, hm]

end Sys2Proof.Machine
end

