-- ==== Sys2Proof/Laws/Trk.lean ====
section
/-! SUPPORT. The tracker's shared operations: what a tick leaves alone and what it does to one entry, what the table searches find,
and what retiring an entry and recording a packet change. -/

namespace Sys2Proof.Machine

theorem toNat_saturatingInc (v : BitVec 16) : (saturatingInc v).toNat = min (v.toNat + 1) 0xFFFF := by
  simp [saturatingInc]

/-- A tick changes no entry's identity: valid, seq, addr, len and sent stay. -/
theorem tick_frame (timeout retry : BitVec 16) (e : Entry) :
    e.tick timeout retry =
      { e with
        age := (e.tick timeout retry).age
        retries := (e.tick timeout retry).retries
        rq := (e.tick timeout retry).rq } := by
  unfold Entry.tick
  split
  · rfl
  · split <;> rfl

@[simp] theorem tick_valid (timeout retry : BitVec 16) (e : Entry) : (e.tick timeout retry).valid = e.valid := by
  rw [tick_frame]

@[simp] theorem tick_seq (timeout retry : BitVec 16) (e : Entry) : (e.tick timeout retry).seq = e.seq := by
  rw [tick_frame]

@[simp] theorem tick_addr (timeout retry : BitVec 16) (e : Entry) : (e.tick timeout retry).addr = e.addr := by
  rw [tick_frame]

@[simp] theorem tick_len (timeout retry : BitVec 16) (e : Entry) : (e.tick timeout retry).len = e.len := by
  rw [tick_frame]

@[simp] theorem tick_sent (timeout retry : BitVec 16) (e : Entry) : (e.tick timeout retry).sent = e.sent := by
  rw [tick_frame]

/-- An entry that holds no packet is not touched by a tick. -/
theorem tick_invalid (timeout retry : BitVec 16) {e : Entry} (h : e.valid = false) : e.tick timeout retry = e := by
  simp [Entry.tick, Entry.raises, Entry.expires, h]

/-- Everything a tick step can do: the scan, or the scan and then FAILED. -/
theorem tickStep_cases (s : State) :
    (s.tickExhausted = [] ∧ s.tickStep = s.tickScan) ∨
    (∃ x xs, s.tickExhausted = x :: xs ∧
      s.tickStep = State.irq .txFailed { s.tickScan with trkState := .txFailed, failSeq := lowestSeq x xs }) := by
  unfold State.tickStep
  cases h : s.tickExhausted with
  | nil => exact .inl ⟨rfl, rfl⟩
  | cons x xs => exact .inr ⟨x, xs, rfl, rfl⟩

/-- A tick step touches only TIME, the TRK table, its state, CNT_RETX, FAIL_SEQ and IRQ_STATUS. -/
theorem tickStep_frame (s : State) :
    s.tickStep = { s with
      time := s.time + 1
      trk := if s.timersRun then s.trk.map (·.tick s.timeout s.retry) else s.trk
      cntRetx := s.cntRetx + BitVec.ofNat 32 s.tickRaised
      trkState := s.tickStep.trkState
      failSeq := s.tickStep.failSeq
      irqStatus := s.tickStep.irqStatus } := by
  rcases tickStep_cases s with ⟨_, h⟩ | ⟨x, xs, _, h⟩ <;> rw [h] <;> rfl

/-- A tick step clears no bit of IRQ_STATUS (rule R141). -/
theorem tickStep_irq (s : State) (k : Nat) (hk : s.irqStatus.getLsbD k = true) : s.tickStep.irqStatus.getLsbD k = true := by
  have hscan : s.tickScan.irqStatus.getLsbD k = true := by
    simp only [State.tickScan]
    split <;> simp [hk]
  rcases tickStep_cases s with ⟨_, h⟩ | ⟨x, xs, _, h⟩
  · rw [h]; exact hscan
  · rw [h]; simp [State.irq, hscan]

/-- The lowest sequence number is one of the given ones, and none is lower. -/
theorem lowestSeq_mem (m : Word) (xs : List Word) : lowestSeq m xs ∈ m :: xs := by
  induction xs generalizing m with
  | nil => simp [lowestSeq]
  | cons x rest ih =>
    have := ih (if x.toNat < m.toNat then x else m)
    simp only [lowestSeq]
    split at this <;> rename_i h <;> simp only [h] at * <;> simp at * <;> rcases this with h | h <;> simp [h]

theorem lowestSeq_le (m : Word) (xs : List Word) : ∀ y ∈ m :: xs, (lowestSeq m xs).toNat ≤ y.toNat := by
  induction xs generalizing m with
  | nil => simp [lowestSeq]
  | cons x rest ih =>
    intro y hy
    have hle := ih (if x.toNat < m.toNat then x else m)
    simp only [lowestSeq]
    have hhead : (lowestSeq (if x.toNat < m.toNat then x else m) rest).toNat ≤ (if x.toNat < m.toNat then x else m).toNat :=
      hle _ List.mem_cons_self
    rcases List.mem_cons.mp hy with rfl | hy
    · refine hhead.trans ?_
      split <;> omega
    · rcases List.mem_cons.mp hy with rfl | hy
      · refine hhead.trans ?_
        split <;> omega
      · exact hle y (List.mem_cons_of_mem _ hy)

/-- The free entry TX.SEND finds is the lowest one with valid = 0 (rule R95). -/
theorem freeEntry_eq_some {t : List Entry} {i : Nat} :
    freeEntry t = some i ↔ i < t.length ∧ (t.getD i Entry.empty).valid = false ∧
      ∀ j, j < i → (t.getD j Entry.empty).valid = true := by
  unfold freeEntry
  rw [List.findIdx?_eq_some_iff_getElem]
  constructor
  · rintro ⟨hi, hv, hlow⟩
    refine ⟨hi, by simpa [List.getD_eq_getElem?_getD, hi] using hv, fun j hj => ?_⟩
    have := hlow j hj
    have hjl : j < t.length := by omega
    simpa [List.getD_eq_getElem?_getD, hjl] using this
  · rintro ⟨hi, hv, hlow⟩
    refine ⟨hi, by simpa [List.getD_eq_getElem?_getD, hi] using hv, fun j hj => ?_⟩
    have hjl : j < t.length := by omega
    have := hlow j hj
    simpa [List.getD_eq_getElem?_getD, hjl] using this

/-- A table with fewer valid entries than entries has a free one (rule R95). -/
theorem freeEntry_isSome {t : List Entry} (h : t.countP (·.valid) < t.length) : ∃ i, freeEntry t = some i := by
  cases hf : freeEntry t with
  | some i => exact ⟨i, rfl⟩
  | none =>
    unfold freeEntry at hf
    rw [List.findIdx?_eq_none_iff] at hf
    have : t.countP (·.valid) = t.length := List.countP_eq_length.mpr fun e he => by simpa using hf e he
    omega

/-- What retiring an entry changes: the entry, perhaps TRK.state, and IRQ_STATUS (rule R98). -/
theorem retire_frame (s : State) (i : Nat) :
    s.retire i = { s with
      trk := s.trk.set i Entry.empty
      trkState := (s.retire i).trkState
      irqStatus := (s.retire i).irqStatus } := by
  unfold State.retire
  simp only
  split <;> rfl

/-- What recording a packet changes: its header in packet RAM, its entry, NEXT_SEQ, TRK.state and the results (rule R97). -/
theorem sendPacket_frame (s : State) (i : Nat) (p : List Byte) :
    s.sendPacket i p = { s with
      pram := (s.writeHeader s.baseArg s.nextSeq (digest s.nextSeq p)).pram
      trk := (s.sendPacket i p).trk
      nextSeq := s.nextSeq + 1
      trkState := (s.sendPacket i p).trkState
      res0 := (s.sendPacket i p).res0
      res1 := (s.sendPacket i p).res1
      res2 := (s.sendPacket i p).res2 } := rfl

end Sys2Proof.Machine
end

