-- ==== Sys2Proof/Laws/Bus.lean ====
section
/-! SUPPORT. What a transaction, an event and a step can do: one inversion lemma each. -/

namespace Sys2Proof.Machine

/-- Everything a host transaction can do (rules R55 to R59). -/
theorem hostStep_cases (r : BusReq) (s : State) :
    (r.isError = true ∧ hostStep r s = .next (s.respond true 0)) ∨
    (r.isError = false ∧ r.dir = .read ∧
      ((∃ g, regionOf s.params r.addr.toNat = .register g ∧ hostStep r s = .next (s.respond false (s.readReg g))) ∨
        (∃ o, regionOf s.params r.addr.toNat = .pram o ∧
          hostStep r s = s.memRead o r.size.bytes fun d => .next (s.respond false (wordOfLanes d))) ∨
        (regionOf s.params r.addr.toNat = .reserved ∧ hostStep r s = .next (s.respond false 0)))) ∨
    (r.isError = false ∧ r.dir = .write ∧
      ((regionOf s.params r.addr.toNat = .register .cmd ∧ hostStep r s = execWord r.wdata (s.respond false 0)) ∨
        (∃ g, g ≠ .cmd ∧ regionOf s.params r.addr.toNat = .register g ∧
          hostStep r s = .next ((s.respond false 0).writeReg g r.wdata)) ∨
        (∃ o, regionOf s.params r.addr.toNat = .pram o ∧
          hostStep r s = .next ((s.respond false 0).memWrite o (lanesOfWord r.wdata r.size.bytes))) ∨
        (regionOf s.params r.addr.toNat = .reserved ∧ hostStep r s = .next (s.respond false 0)))) := by
  cases he : r.isError with
  | true => exact .inl ⟨rfl, by simp [hostStep, he]⟩
  | false =>
    refine .inr ?_
    cases hd : r.dir with
    | read =>
      refine .inl ⟨rfl, rfl, ?_⟩
      cases hr : regionOf s.params r.addr.toNat with
      | register g => exact .inl ⟨g, rfl, by simp [hostStep, he, hd, hostRead, hr]⟩
      | pram o => exact .inr (.inl ⟨o, rfl, by simp [hostStep, he, hd, hostRead, hr]⟩)
      | reserved => exact .inr (.inr ⟨rfl, by simp [hostStep, he, hd, hostRead, hr]⟩)
    | write =>
      refine .inr ⟨rfl, rfl, ?_⟩
      cases hr : regionOf s.params r.addr.toNat with
      | register g =>
        by_cases hc : g = .cmd
        · subst hc; exact .inl ⟨rfl, by simp [hostStep, he, hd, hostWrite, hr]⟩
        · exact .inr (.inl ⟨g, hc, rfl, by simp [hostStep, he, hd, hostWrite, hr]⟩)
      | pram o => exact .inr (.inr (.inl ⟨o, rfl, by simp [hostStep, he, hd, hostWrite, hr]⟩))
      | reserved => exact .inr (.inr (.inr ⟨rfl, by simp [hostStep, he, hd, hostWrite, hr]⟩))

/-- Everything a CMD write can do: a command, or ILLEGAL_CMD (rule R78). -/
theorem execWord_cases (w : Word) (s : State) :
    (∃ i, decode w = .command i ∧ execWord w s = exec i s) ∨
    (∃ why, decode w = .illegal why ∧ execWord w s = execIllegal s) := by
  unfold execWord
  cases decode w with
  | command i => exact .inl ⟨i, rfl, rfl⟩
  | illegal why => exact .inr ⟨why, rfl, rfl⟩

/-- Everything a step can do (rules R13, R14, R149). -/
theorem step_cases (s : State) :
    (s.params.legal = false ∧ step s = .refused .illegalConfig) ∨
    (s.params.legal = true ∧ s.agenda = [] ∧ step s = .next s) ∨
    (∃ e rest, s.params.legal = true ∧ s.agenda = e :: rest ∧ step s = runEvent e { s with agenda := rest }) := by
  unfold step
  cases hl : s.params.legal with
  | false => exact .inl ⟨rfl, by simp⟩
  | true =>
    refine .inr ?_
    cases ha : s.agenda with
    | nil => exact .inl ⟨rfl, rfl, by simp⟩
    | cons e rest => exact .inr ⟨e, rest, rfl, rfl, by simp⟩

/-- Every register is found at its own offset (rule R29). -/
@[simp] theorem at?_offset (r : Reg) : Reg.at? r.offset = some r := by cases r <;> rfl

theorem find?_offset {rs : List Reg} {r : Reg} {a : Nat} (h : rs.find? (fun x => x.offset == a) = some r) : r.offset = a := by
  simpa using List.find?_some h

/-- A register stands at one offset only (rule R29). -/
theorem offset_of_at? {a : Nat} {r : Reg} (h : Reg.at? a = some r) : r.offset = a := find?_offset h

theorem offset_lt (r : Reg) : r.offset < 0x088 := by cases r <;> decide

/-- The offset of a register lies in register space, where the layout finds it (rules R29, R52). -/
@[simp] theorem regionOf_offset (p : Params) (r : Reg) : regionOf p r.offset = .register r := by
  have h1 : r.offset < 0x1000 := Nat.lt_trans (offset_lt r) (by decide)
  simp [regionOf, h1]

/-- A packet-RAM offset below PRAM_BYTES is where the layout finds it (rules R52, R58). -/
theorem regionOf_pram {p : Params} {o : Nat} (h : o < p.pramBytes) : regionOf p (0x10000 + o) = .pram o := by
  have h1 : ¬ (0x10000 + o < 0x1000) := by omega
  have h2 : 0x10000 ≤ 0x10000 + o ∧ 0x10000 + o < 0x10000 + p.pramBytes := by omega
  simp [regionOf, h1, h]

/-- What the layout calls packet RAM lies inside it. -/
theorem pram_of_regionOf {p : Params} {a o : Nat} (h : regionOf p a = .pram o) : a = 0x10000 + o ∧ o < p.pramBytes := by
  unfold regionOf at h
  split at h
  · split at h <;> nomatch h
  · split at h
    · rename_i h2
      have : a - 0x10000 = o := by simpa using h
      omega
    · nomatch h

/-- A write to a register other than CMD changes no state but registers and ports: the tables, FIFOs and packet RAM stay. -/
theorem writeReg_frame (s : State) (g : Reg) (v : Word) :
    s.writeReg g v = { s with
      arg0 := (s.writeReg g v).arg0, arg1 := (s.writeReg g v).arg1, arg2 := (s.writeReg g v).arg2
      win := (s.writeReg g v).win, timeout := (s.writeReg g v).timeout, retry := (s.writeReg g v).retry
      mss := (s.writeReg g v).mss, sentLen := (s.writeReg g v).sentLen
      sent0 := (s.writeReg g v).sent0, sent1 := (s.writeReg g v).sent1
      irqStatus := (s.writeReg g v).irqStatus, irqEnable := (s.writeReg g v).irqEnable } := by
  cases g <;> rfl

end Sys2Proof.Machine
end

