-- ==== Sys2Proof/Laws/PerInstr.lean ====
section
/-! SUPPORT. Statements for all instructions, one lemma per constructor: every command's word is an opcode byte below reserved zero
bits, and it takes each operand role at most once, in the order ARG0, ARG1, ARG2 (rules R74, R75, R76). -/

namespace Sys2Proof.Laws

/-- RSV of the encoding is 0, UNIT is one of the four assigned units, and the operand roles do not repeat. -/
def OpcodeShape.Statement (i : Instr) : Prop :=
  cmdRsv (encode i) = 0 ∧ (cmdUnit (encode i)).toNat < 4 ∧ (Machine.operandsOf i).Nodup

theorem OpcodeShape.ckCrc : OpcodeShape.Statement .ckCrc := by unfold OpcodeShape.Statement; decide
theorem OpcodeShape.ckEnc : OpcodeShape.Statement .ckEnc := by unfold OpcodeShape.Statement; decide
theorem OpcodeShape.ckDec : OpcodeShape.Statement .ckDec := by unfold OpcodeShape.Statement; decide
theorem OpcodeShape.ckVfy : OpcodeShape.Statement .ckVfy := by unfold OpcodeShape.Statement; decide
theorem OpcodeShape.txSend : OpcodeShape.Statement .txSend := by unfold OpcodeShape.Statement; decide
theorem OpcodeShape.txAck : OpcodeShape.Statement .txAck := by unfold OpcodeShape.Statement; decide
theorem OpcodeShape.txTick : OpcodeShape.Statement .txTick := by unfold OpcodeShape.Statement; decide
theorem OpcodeShape.txRetx : OpcodeShape.Statement .txRetx := by unfold OpcodeShape.Statement; decide
theorem OpcodeShape.txQry : OpcodeShape.Statement .txQry := by unfold OpcodeShape.Statement; decide
theorem OpcodeShape.txRst : OpcodeShape.Statement .txRst := by unfold OpcodeShape.Statement; decide
theorem OpcodeShape.rxPut : OpcodeShape.Statement .rxPut := by unfold OpcodeShape.Statement; decide
theorem OpcodeShape.rxPop : OpcodeShape.Statement .rxPop := by unfold OpcodeShape.Statement; decide
theorem OpcodeShape.rxAckq : OpcodeShape.Statement .rxAckq := by unfold OpcodeShape.Statement; decide
theorem OpcodeShape.rxQry : OpcodeShape.Statement .rxQry := by unfold OpcodeShape.Statement; decide
theorem OpcodeShape.rxRst : OpcodeShape.Statement .rxRst := by unfold OpcodeShape.Statement; decide
theorem OpcodeShape.nop : OpcodeShape.Statement .nop := by unfold OpcodeShape.Statement; decide
theorem OpcodeShape.srst : OpcodeShape.Statement .srst := by unfold OpcodeShape.Statement; decide

end Sys2Proof.Laws
end

