-- ==== Sys2Proof/Tests/Slice0.lean ====
section
/-! SUPPORT. Tests of the model on fixed values, and a witness for every obligation that has hypotheses. Expected values of the
tests come from the spec: the opcode map (rule R76), the register rules, and the vectors of spec/95_test_vectors.md, named at each
test. -/

namespace Sys2Proof.Tests

/- One theorem at a time: kernel evaluations that run side by side take more memory than the check allows. -/
set_option Elab.async false

open Sys2Proof Sys2Proof.Machine

/-! ## Decoding: one word per command, written bit by bit from the table of rule R76: 24 zero bits, UNIT, FN -/

theorem test_decode_ckCrc : decode 0b000000000000000000000000_0000_0001#32 = .command .ckCrc := by decide
theorem test_decode_ckEnc : decode 0b000000000000000000000000_0000_0010#32 = .command .ckEnc := by decide
theorem test_decode_ckDec : decode 0b000000000000000000000000_0000_0011#32 = .command .ckDec := by decide
theorem test_decode_ckVfy : decode 0b000000000000000000000000_0000_0100#32 = .command .ckVfy := by decide
theorem test_decode_txSend : decode 0b000000000000000000000000_0001_0000#32 = .command .txSend := by decide
theorem test_decode_txAck : decode 0b000000000000000000000000_0001_0001#32 = .command .txAck := by decide
theorem test_decode_txTick : decode 0b000000000000000000000000_0001_0010#32 = .command .txTick := by decide
theorem test_decode_txRetx : decode 0b000000000000000000000000_0001_0011#32 = .command .txRetx := by decide
theorem test_decode_txQry : decode 0b000000000000000000000000_0001_0100#32 = .command .txQry := by decide
theorem test_decode_txRst : decode 0b000000000000000000000000_0001_0101#32 = .command .txRst := by decide
theorem test_decode_rxPut : decode 0b000000000000000000000000_0010_0000#32 = .command .rxPut := by decide
theorem test_decode_rxPop : decode 0b000000000000000000000000_0010_0001#32 = .command .rxPop := by decide
theorem test_decode_rxAckq : decode 0b000000000000000000000000_0010_0010#32 = .command .rxAckq := by decide
theorem test_decode_rxQry : decode 0b000000000000000000000000_0010_0011#32 = .command .rxQry := by decide
theorem test_decode_rxRst : decode 0b000000000000000000000000_0010_0100#32 = .command .rxRst := by decide
theorem test_decode_nop : decode 0b000000000000000000000000_0011_0000#32 = .command .nop := by decide
theorem test_decode_srst : decode 0b000000000000000000000000_0011_0001#32 = .command .srst := by decide

/-- The ends of every illegal range of rule R77. -/
theorem test_decode_illegal :
    decode 0x00000100 = .illegal .reservedBits ∧ decode 0x80000001 = .illegal .reservedBits ∧
    decode 0x00000000 = .illegal .opcodeZero ∧
    decode 0x00000005 = .illegal .unassignedFunction ∧ decode 0x0000000F = .illegal .unassignedFunction ∧
    decode 0x00000016 = .illegal .unassignedFunction ∧ decode 0x0000001F = .illegal .unassignedFunction ∧
    decode 0x00000025 = .illegal .unassignedFunction ∧ decode 0x0000002F = .illegal .unassignedFunction ∧
    decode 0x00000032 = .illegal .unassignedFunction ∧ decode 0x0000003F = .illegal .unassignedFunction ∧
    decode 0x00000040 = .illegal .unassignedUnit ∧ decode 0x000000FF = .illegal .unassignedUnit := by decide

theorem test_decodeTableWord :
    decodeTableWord 32 0x10 = some .txSend ∧ decodeTableWord 8 0x31 = some .srst ∧ decodeTableWord 32 0x112 = none := by decide

/-! ## Well-formedness: one ill-formed term for each check -/

theorem test_wf_command : Instr.wellFormed .txSend = true := by decide
theorem test_wf_default : Params.default.legal = true := by decide
theorem test_wf_txSlots_low : ({ Params.default with txSlots := 0 } : Params).legal = false := by decide
theorem test_wf_txSlots_high : ({ Params.default with txSlots := 256 } : Params).legal = false := by decide
theorem test_wf_rxSlots_low : ({ Params.default with rxSlots := 0 } : Params).legal = false := by decide
theorem test_wf_rxSlots_high : ({ Params.default with rxSlots := 256 } : Params).legal = false := by decide
theorem test_wf_ackqDepth_low : ({ Params.default with ackqDepth := 0 } : Params).legal = false := by decide
theorem test_wf_ackqDepth_high : ({ Params.default with ackqDepth := 256 } : Params).legal = false := by decide
theorem test_wf_mssMax_low : ({ Params.default with mssMax := 0 } : Params).legal = false := by decide
theorem test_wf_mssMax_high : ({ Params.default with mssMax := 65536, dlvBytes := 65536 } : Params).legal = false := by decide
theorem test_wf_pramBytes_low : ({ Params.default with pramBytes := 0 } : Params).legal = false := by decide
theorem test_wf_pramBytes_high : ({ Params.default with pramBytes := 65552 } : Params).legal = false := by decide
theorem test_wf_pramBytes_multiple : ({ Params.default with pramBytes := 24 } : Params).legal = false := by decide
theorem test_wf_dlvBytes_low : ({ Params.default with dlvBytes := 1023 } : Params).legal = false := by decide
theorem test_wf_dlvBytes_high : ({ Params.default with dlvBytes := 16777216 } : Params).legal = false := by decide
theorem test_wf_stmt_operands :
    Stmt.wellFormed (.cmd .txSend [0]) = false ∧ Stmt.wellFormed (.cmd .nop [0]) = false ∧
    Stmt.wellFormed (.cmd .txSend [0, 2]) = true := by decide
theorem test_wf_stmt_offsets :
    Stmt.wellFormed (.pw .word 0x10000 0) = false ∧ Stmt.wellFormed (.pr .byte 0x10000) = false ∧
    Stmt.wellFormed (.pbytes 0xFFFF [1, 2]) = false ∧ Stmt.wellFormed (.pbytes 0xFFFE [1, 2]) = true := by decide

/-! ## Small states -/

/-- What a test looks at: whether a result is a next state with a property. -/
def holds (r : Result) (p : State → Bool) : Bool :=
  match r with
  | .next t => p t
  | .fault _ => false
  | .refused _ => false

/-- Whether a result is this refusal. -/
def refuses (r : Result) (why : Refusal) : Bool :=
  match r with
  | .next _ => false
  | .fault _ => false
  | .refused x => x == why

theorem next_of_holds {r : Result} {p : State → Bool} (h : holds r p = true) : ∃ t, r = .next t ∧ p t = true := by
  unfold holds at h
  split at h
  · exact ⟨_, rfl, h⟩
  · exact absurd h (by decide)
  · exact absurd h (by decide)

/-- The command's code and results are these, and something more holds of the state. -/
def gives (c : Code) (r0 r1 r2 : Word) (more : State → Bool) (t : State) : Bool :=
  t.code == c && t.res0 == r0 && t.res1 == r1 && t.res2 == r2 && more t

/-- ARG0, ARG1 and ARG2 set. -/
def args (a0 a1 a2 : Word) (s : State) : State := { s with arg0 := a0, arg1 := a1, arg2 := a2 }

/-- The build of spec/95_test_vectors.md section 2.4. -/
def small : Params := { Params.default with rxSlots := 4, ackqDepth := 2, mssMax := 4, dlvBytes := 4, pramBytes := 256 }

/-- Encode(0, "AB") and Encode(1, "CD") of spec/95_test_vectors.md section 2.1. -/
def packet0 : List Byte := [0x00, 0x00, 0x00, 0x00, 0xc0, 0x72, 0xff, 0x5b, 0x41, 0x42]
def packet1 : List Byte := [0x00, 0x00, 0x00, 0x01, 0x1a, 0xe5, 0x52, 0xdb, 0x43, 0x44]

/-- Reset, with the payload "AB" at packet-RAM offset 8 and four bytes of zeros at 1024 (section 2.3 of the vectors). -/
def sender : State := (State.reset.memWrite 8 [0x41, 0x42]).memWrite 1024 [0, 0, 0, 0]

/-- The pending entry of vector V-TRK-1. -/
def entry0 : Entry := { valid := true, seq := 0, addr := 0, len := 10, age := 0, retries := 0, rq := false, sent := false }

/-- `sender` after vector V-TRK-1. -/
def sent0 : State := { sender with trk := State.reset.trk.set 0 entry0, nextSeq := 1 }

/-- The small build from reset, with Encode(1, "CD") at 0 and Encode(0, "AB") at 20. -/
def receiver : State := ((State.resetOf small).memWrite 0 packet1).memWrite 20 packet0

/-- `receiver` after vector V-RAB-7: slot 1 holds seq 1, which is acknowledged. -/
def buffered : State :=
  { receiver with
    rabState := .buffering
    slots := receiver.slots.set 1 { valid := true, seq := 1, len := 2, sent := false, data := [0x43, 0x44] }
    ackq := [1], irqStatus := 0x02 }

/-! ## One step of each command, against the vectors of spec/95_test_vectors.md -/

/-- Rule R85's check value. -/
theorem test_crc32_check : crc32 [0x31, 0x32, 0x33, 0x34, 0x35, 0x36, 0x37, 0x38, 0x39] = 0xCBF43926 := by decide +kernel
/-- Section 2.1: Digest(0, "AB") and Encode(0xFFFFFFFE, 00). -/
theorem test_encode_packet :
    encodePacket 0 [0x41, 0x42] = packet0 ∧
    encodePacket 0xFFFFFFFE [0x00] = [0xff, 0xff, 0xff, 0xfe, 0xe6, 0xe4, 0xce, 0xbe, 0x00] := by decide +kernel

/-- Section 2.3 group F: SENTLEN 4 and SENT0 0x454E4421 are "END!". -/
theorem test_sentinel :
    ({ State.reset with sentLen := 4, sent0 := 0x454E4421 } : State).sentinel = [0x45, 0x4e, 0x44, 0x21] := by decide

/-- V-CKU-1's shape on "AB": CRC32 is 0x30694C07. -/
theorem test_ckCrc : holds (exec .ckCrc (args 0 8 2 sender)) (gives .ok 0x30694C07 0 0 fun _ => true) = true := by decide +kernel
/-- V-CKU-3. -/
theorem test_ckCrc_badAddr :
    holds (exec .ckCrc (args 0 16384 1 sender)) (gives .badAddr 0 0 0 fun t => t.irqStatus == 0x80) = true := by decide +kernel
/-- V-CKU-5, with the packet at 0. -/
theorem test_ckEnc :
    holds (exec .ckEnc (args 0 0 2 sender))
      (gives .ok 0xc072ff5b 0xa 0 fun t => t.pram.readBytes 0 10 == some packet0) = true := by decide +kernel
/-- V-CKU-6. -/
theorem test_ckEnc_badLen : holds (exec .ckEnc (args 0 0 1025 sender)) (gives .badLen 0 0 0 fun _ => true) = true := by decide +kernel
/-- V-CKU-13. -/
theorem test_ckDec :
    holds (exec .ckDec (args 0 20 10 receiver)) (gives .ok 0 0xc072ff5b 2 fun _ => true) = true := by decide +kernel
/-- V-CKU-11. -/
theorem test_ckDec_framing :
    holds (exec .ckDec (args 0 20 7 receiver)) (gives .framing 0 0 0 fun t => t.irqStatus == 0) = true := by decide +kernel
/-- V-CKU-15. -/
theorem test_ckVfy :
    holds (exec .ckVfy (args 0 20 10 receiver)) (gives .ok 1 0xc072ff5b 0 fun _ => true) = true := by decide +kernel
/-- V-CKU-18: the datagram cut to 9 bytes. -/
theorem test_ckVfy_mismatch :
    holds (exec .ckVfy (args 0 20 9 receiver)) (gives .csumMismatch 0 0xc7f9861b 0 fun _ => true) = true := by decide +kernel
/-- V-TRK-1. -/
theorem test_txSend :
    holds (exec .txSend (args 0 0 2 sender))
      (gives .ok 0 0xa 0xc072ff5b fun t =>
        t.nextSeq == 1 && t.txCount == 1 && t.trk.head? == some entry0 && t.pram.readBytes 0 10 == some packet0) = true := by
  decide +kernel
/-- V-TRK-20's shape: the empty sentinel closes the transfer. -/
theorem test_txSend_sentinel :
    holds (exec .txSend (args 0 64 0 sender)) (gives .ok 0 8 0x2144DF1C fun t => t.trkState == .txClosing) = true := by
  decide +kernel
/-- V-TRK-9. -/
theorem test_txAck :
    holds (exec .txAck (args 0 1024 4 sent0))
      (gives .ok 0 1 0 fun t => t.txCount == 0 && t.irqStatus == 0x08 && t.trkState == .txOpen) = true := by decide +kernel
/-- V-TRK-10. -/
theorem test_txAck_stale :
    holds (exec .txAck (args 0 1024 4 sender)) (gives .staleAck 0 0 0 fun t => t.irqStatus == 0) = true := by decide +kernel
/-- V-TRK-14: TIMEOUT 1; V-TRK-26: two entries expire in one step, and both are counted; the first tick of group C raises
nothing. -/
theorem test_txTick :
    holds (exec .txTick { sent0 with timeout := 1 })
      (gives .ok 1 0 0 fun t => t.irqStatus == 0x04 && t.cntRetx == 1 && t.time == 1) = true ∧
    holds (exec .txTick { sent0 with timeout := 1, trk := sent0.trk.set 1 { entry0 with seq := 1, addr := 64 } })
      (gives .ok 2 0 0 fun t => t.irqStatus == 0x04 && t.cntRetx == 2 && t.trk.countP (·.rq) == 2) = true ∧
    holds (exec .txTick { sent0 with timeout := 2, retry := 2 })
      (gives .ok 0 0 0 fun t => t.irqStatus == 0 && t.trkState == .txOpen && t.trk.head? == some { entry0 with age := 1 }) =
      true := by decide +kernel
/-- Section 2.3 group C, tick 6: RETRY 2, TIMEOUT 2, the entry at age 1, retries 2. -/
theorem test_txTick_exhausts :
    holds (exec .txTick
        { sent0 with timeout := 2, retry := 2, trk := sent0.trk.set 0 { entry0 with age := 1, retries := 2, rq := true } })
      (gives .ok 0 1 0 fun t =>
        t.trkState == .txFailed && t.failSeq == 0 && t.irqStatus == 0x20 &&
        t.trk.head? == some { entry0 with age := 2, retries := 2, rq := true }) = true := by decide +kernel
/-- V-TRK-17. -/
theorem test_txRetx :
    holds (exec .txRetx { sent0 with trk := sent0.trk.set 0 { entry0 with rq := true } })
      (gives .ok 0 0 0xa fun t => t.trk.head? == some entry0) = true := by decide +kernel
/-- V-TRK-18. -/
theorem test_txRetx_empty : holds (exec .txRetx sent0) (gives .empty 0 0 0 fun _ => true) = true := by decide +kernel
/-- V-TRK-13. -/
theorem test_txQry :
    holds (exec .txQry { sent0 with trk := sent0.trk.set 0 { entry0 with rq := true, retries := 1 } })
      (gives .ok 3 0 1 fun _ => true) = true := by decide +kernel
/-- V-TRK-4. -/
theorem test_txQry_absent : holds (exec .txQry (args 1 0 0 sent0)) (gives .ok 0 0 0 fun _ => true) = true := by decide +kernel
/-- Rule R105. -/
theorem test_txRst :
    holds (exec .txRst sent0) (gives .ok 0 0 0 fun t => t.trk == State.reset.trk && t.nextSeq == 0) = true := by decide +kernel
/-- V-RAB-7. -/
theorem test_rxPut :
    holds (exec .rxPut (args 0 0 10 receiver))
      (gives .ok 1 2 3 fun t => t.slots == buffered.slots && t.ackq == [1] && t.rabState == .buffering) = true := by decide +kernel
/-- V-RAB-9c. -/
theorem test_rxPut_drains :
    holds (exec .rxPut (args 0 20 10 buffered))
      (gives .ok 0 2 0x203 fun t => t.dlv == [0x41, 0x42, 0x43, 0x44] && t.expSeq == 2 && t.ackq == [1, 0]) = true := by
  decide +kernel
/-- V-RAB-13, V-RAB-18. -/
theorem test_rxPop :
    holds (exec .rxPop { receiver with dlv := [0x61, 0x62] }) (gives .ok 0x61 1 0 fun t => t.dlv == [0x62]) = true ∧
    holds (exec .rxPop receiver) (gives .empty 0 0 0 fun _ => true) = true := by decide +kernel
/-- V-RAB-14: the pop frees the space the next slot waits for. -/
theorem test_rxPop_drains :
    holds (exec .rxPop
        { receiver with
          rabState := .buffering, expSeq := 1, dlv := [0x64], rxBytes := 4
          slots := receiver.slots.set 1 { valid := true, seq := 1, len := 4, sent := false, data := [0x65, 0x66, 0x67, 0x68] } })
      (gives .ok 0x64 1 1 fun t => t.dlv == [0x65, 0x66, 0x67, 0x68] && t.expSeq == 2 && t.rxBytes == 8) = true := by
  decide +kernel
/-- V-RAB-9. -/
theorem test_rxAckq :
    holds (exec .rxAckq (args 0 200 0 buffered))
      (gives .ok 1 4 0 fun t => t.ackq == [] && t.pram.readBytes 200 4 == some [0, 0, 0, 1]) = true := by decide +kernel
/-- V-RAB-20. -/
theorem test_rxAckq_stops :
    holds (exec .rxAckq (args 0 200 0 receiver)) (gives .empty 0 0 0 fun _ => true) = true ∧
    holds (exec .rxAckq (args 0 253 0 receiver)) (gives .badAddr 0 0 0 fun _ => true) = true := by decide +kernel
/-- V-RAB-9b. -/
theorem test_rxQry :
    holds (exec .rxQry (args 1 0 0 buffered)) (gives .ok 1 2 0 fun _ => true) = true ∧
    holds (exec .rxQry (args 5 0 0 buffered)) (gives .ok 0 0 0 fun _ => true) = true := by decide +kernel
/-- V-RAB-19. -/
theorem test_rxRst :
    holds (exec .rxRst buffered)
      (gives .ok 0 0 0 fun t =>
        t.rabState == .awaiting && t.ackq == [] && t.rxCount == 0 && t.irqStatus == 0x02) = true := by decide +kernel
/-- Rule R128. -/
theorem test_nop :
    holds (exec .nop { sent0 with res0 := 7, code := .empty }) (gives .ok 0 0 0 fun t => t.trk == sent0.trk) = true := by
  decide +kernel
/-- Rules R51, R129: packet RAM stays, the table and WIN do not. -/
theorem test_srst :
    holds (exec .srst { sent0 with win := 3 })
      (gives .ok 0 0 0 fun t => t.txCount == 0 && t.win == 1 && t.pram == sent0.pram) = true := by decide +kernel
/-- Rule R77: a word no command has. -/
theorem test_illegal :
    holds (execWord 0x00000112 sent0) (gives .illegalCmd 0 0 0 fun t => t.irqStatus == 0x80 && t.trk == sent0.trk) = true := by
  decide +kernel

/-! ## The bus, the tick and the step -/

/-- Rule R61's example: the host's 4-byte read of a big-endian field is byte-reversed. -/
theorem test_bus_lanes :
    holds (hostStep ⟨.read, 0x10004, .word, 0⟩ (State.reset.memWrite 0 packet0))
      (fun t => t.resp == some ⟨false, 0x5bff72c0⟩) = true := by decide +kernel
/-- Rules R31, R34: an out-of-range write stores the nearest legal value. -/
theorem test_bus_warl :
    holds (hostStep ⟨.write, 0x034, .word, 0xFF⟩ State.reset) (fun t => t.win == 16) = true ∧
    holds (hostStep ⟨.write, 0x040, .word, 0⟩ State.reset) (fun t => t.mss == 1) = true := by decide +kernel
/-- Section 2.3, the ends of groups C and A, and section 2.4, the end of V-RAB-7 to V-RAB-10 and V-RAB-18: STATUS = 0x00010C00,
0x00000007, 0x00000105 and 0x00000201. -/
theorem test_bus_status :
    holds (hostStep ⟨.read, 0x018, .word, 0⟩ { sent0 with trkState := .txFailed })
      (fun t => t.resp == some ⟨false, 0x00010C00⟩) = true ∧
    holds (hostStep ⟨.read, 0x018, .word, 0⟩ { sender with code := .staleAck })
      (fun t => t.resp == some ⟨false, 0x00000007⟩) = true ∧
    holds (hostStep ⟨.read, 0x018, .word, 0⟩ { receiver with code := .duplicate, rabState := .buffering })
      (fun t => t.resp == some ⟨false, 0x00000105⟩) = true ∧
    holds (hostStep ⟨.read, 0x018, .word, 0⟩ { receiver with code := .empty, rabState := .complete })
      (fun t => t.resp == some ⟨false, 0x00000201⟩) = true := by decide +kernel
/-- Rule R27: ID and the capability words of the default build. -/
theorem test_bus_caps :
    holds (hostStep ⟨.read, 0x000, .word, 0⟩ State.reset) (fun t => t.resp == some ⟨false, 0x52445441⟩) = true ∧
    holds (hostStep ⟨.read, 0x004, .word, 0⟩ State.reset) (fun t => t.resp == some ⟨false, 0x10101010⟩) = true := by decide +kernel
/-- Rule R55: a 2-byte register access is a bus error. -/
theorem test_bus_error :
    holds (hostStep ⟨.write, 0x01C, .half, 5⟩ State.reset) (fun t => t.resp == some ⟨true, 0⟩ && t.arg0 == 0) = true := by
  decide +kernel
/-- Rule R54: the host's read of a byte nothing has written. -/
theorem test_bus_unwritten : refuses (hostStep ⟨.read, 0x10000, .byte, 0⟩ State.reset) .unwrittenPram = true := by decide +kernel
/-- Rule R101. -/
theorem test_step_tick :
    holds (step { sent0 with agenda := [.tick], timeout := 1 })
      (fun t => t.time == 1 && t.cntRetx == 1 && t.code == .ok && t.agenda == []) = true := by decide +kernel
/-- Rule R83: `TX.SEND 64, 2` is the three writes of ARG1, ARG2 and CMD. -/
theorem test_expand :
    assemble [.cmd .txSend [64, 2], .tick] =
      [.host ⟨.write, 0x020, .word, 64⟩, .host ⟨.write, 0x024, .word, 2⟩, .host ⟨.write, 0x014, .word, 0x10⟩, .tick] := by
  decide
/-- A row's word as the first command after reset. -/
theorem test_step_fetch :
    holds (step (State.reset.withFetchWord 32 0x12)) (gives .ok 0 0 0 fun t => t.time == 1) = true ∧
    holds (step (State.reset.withFetchWord 32 0x24)) (gives .ok 0 0 0 fun _ => true) = true := by decide +kernel

/-! ## Witnesses: a concrete state and operands that meet the hypotheses of each obligation, and of each of its clauses -/

theorem exists_next_of_holds {r : Result} {p : State → Bool} (h : holds r p = true) : ∃ t, r = .next t :=
  let ⟨t, ht, _⟩ := next_of_holds h
  ⟨t, ht⟩

theorem refused_of_refuses {r : Result} {why : Refusal} (h : refuses r why = true) : r = .refused why := by
  unfold refuses at h
  split at h
  · exact absurd h (by decide)
  · exact absurd h (by decide)
  · rw [eq_of_beq h]

/-- Any next state will do. -/
def anyNext : State → Bool := fun _ => true

theorem witness_DecodeReadsExactlyTheEncodings :
    Instr.wellFormed .srst = true ∧ decode 0x00000031 = .command .srst := by decide

theorem witness_IllegalWordsEndWithIllegalCmd : decode 0x00000032 = .illegal .unassignedFunction := by decide

theorem witness_PseudoInstructions :
    Instr.rxPut ∈ [Instr.ckCrc, .ckDec, .ckVfy, .txSend, .txAck, .rxPut] ∧ Instr.rxQry ∈ [Instr.txQry, .rxQry] ∧
    Instr.srst ∈ [Instr.txTick, .txRetx, .txRst, .rxPop, .rxRst, .nop, .srst] := by decide

/-- Both kinds of word. -/
def atCmd (w : Word) : State := { sent0 with agenda := [.host ⟨.write, 0x014, .word, w⟩] }

theorem witness_StepRunsTheDecodedCommand :
    (atCmd 0x12).params.legal = true ∧ (atCmd 0x12).agenda = .host ⟨.write, 0x014, .word, 0x12⟩ :: [] ∧
    decode 0x12 = .command .txTick ∧
    (atCmd 0x16).agenda = .host ⟨.write, 0x014, .word, 0x16⟩ :: [] ∧ decode 0x16 = .illegal .unassignedFunction := by decide

theorem witness_StepTicksOrIdlesOrRefusesTheBuild :
    sent0.params.legal = true ∧ ({ sent0 with agenda := [.tick] } : State).agenda = .tick :: [] ∧ sent0.agenda = [] ∧
    (State.resetOf { small with dlvBytes := 3 }).params.dlvBytes < (State.resetOf { small with dlvBytes := 3 }).params.mssMax := by
  decide

theorem witness_BusErrorsHaveNoEffect :
    (0x10001#17).toNat % Size.half.bytes ≠ 0 ∧ ((0x00FFE#17).toNat ≤ 0x00FFF ∧ Size.half.bytes ≠ 4) := by decide

/-- The first and the last word of each reserved range. -/
theorem witness_ReservedOffsetsReadZeroAndIgnoreWrites :
    ((0x088#17).toNat % Size.word.bytes = 0 ∧ 0x088 ≤ (0x088#17).toNat ∧ (0x088#17).toNat ≤ 0xFFF) ∧
    ((0xFFC#17).toNat % Size.word.bytes = 0 ∧ 0x088 ≤ (0xFFC#17).toNat ∧ (0xFFC#17).toNat ≤ 0xFFF) ∧
    ((0x01000#17).toNat % Size.byte.bytes = 0 ∧ 0x01000 ≤ (0x01000#17).toNat ∧ (0x01000#17).toNat ≤ 0x0FFFF) ∧
    ((0x0FFFF#17).toNat % Size.byte.bytes = 0 ∧ 0x01000 ≤ (0x0FFFF#17).toNat ∧ (0x0FFFF#17).toNat ≤ 0x0FFFF) ∧
    (0x10000 + receiver.params.pramBytes ≤ (0x10100#17).toNat ∧ 0x10000 ≤ (0x10100#17).toNat) ∧
    (0x10000 + receiver.params.pramBytes ≤ (0x1FFFE#17).toNat ∧ (0x1FFFE#17).toNat % Size.half.bytes = 0) := by decide

theorem witness_BusReadsHaveNoSideEffect :
    ∃ t, hostStep ⟨.read, 0x10014, .half, 0⟩ receiver = .next t :=
  exists_next_of_holds (p := anyNext) (by decide)

/-- The last access of each size. -/
theorem witness_PramLanesAreLittleEndian :
    receiver.params.legal = true ∧
    (255 % Size.byte.bytes = 0 ∧ 255 + Size.byte.bytes ≤ receiver.params.pramBytes) ∧
    (254 % Size.half.bytes = 0 ∧ 254 + Size.half.bytes ≤ receiver.params.pramBytes) ∧
    (252 % Size.word.bytes = 0 ∧ 252 + Size.word.bytes ≤ receiver.params.pramBytes) := by decide

/-- Offset 255 is not written: the host's read of it, and each command's MemRead that covers it. -/
theorem witness_UnwrittenPramReadIsRefused_host :
    receiver.pram.read? 255 = none ∧ receiver.params.legal = true ∧ 252 % Size.word.bytes = 0 ∧
    252 + Size.word.bytes ≤ receiver.params.pramBytes ∧ 252 ≤ 255 ∧ 255 < 252 + Size.word.bytes := by decide

theorem witness_UnwrittenPramReadIsRefused_datagram :
    let s := args 0 248 8 receiver
    s.pram.read? 255 = none ∧ s.arg1.toNat + s.arg2.toNat ≤ s.params.pramBytes ∧ s.arg1.toNat ≤ 255 ∧
    255 < s.arg1.toNat + s.arg2.toNat ∧ 8 ≤ s.arg2.toNat ∧ 255 < s.arg1.toNat + 8 ∧ s.ackq.length ≠ s.params.ackqDepth := by decide

theorem witness_UnwrittenPramReadIsRefused_ack :
    let s := args 0 252 4 receiver
    s.pram.read? 255 = none ∧ s.arg1.toNat + s.arg2.toNat ≤ s.params.pramBytes ∧ s.arg1.toNat ≤ 255 ∧
    255 < s.arg1.toNat + s.arg2.toNat ∧ s.arg2.toNat = 4 := by decide

theorem witness_UnwrittenPramReadIsRefused_payload :
    let s := args 0 247 1 receiver
    s.pram.read? 255 = none ∧ s.arg1.toNat + 8 + s.arg2.toNat ≤ s.params.pramBytes ∧ s.arg2.toNat ≤ s.mss.toNat ∧
    s.arg1.toNat + 8 ≤ 255 ∧ 255 < s.arg1.toNat + 8 + s.arg2.toNat ∧
    s.trkState = .txOpen ∧ s.nextSeq ≠ 0xFFFFFFFF ∧ s.txCount < s.win.toNat := by decide

theorem witness_RegisterReadsReturnTheirFields : receiver.params.legal = true := by decide

theorem witness_RegisterWritesStoreTheLegalValue : receiver.params.legal = true := by decide

/-- The ends of both registers' bytes, and the empty sentinel. -/
theorem witness_SentinelBytesComeFromTheirRegisters :
    (let s := { sent0 with sentLen := 8 }
     s.sentLen.toNat ≤ 8 ∧ 0 < s.sentLen.toNat ∧ 3 < s.sentLen.toNat ∧ 4 < s.sentLen.toNat ∧ 7 < s.sentLen.toNat) ∧
    (sent0.sentLen.toNat ≤ 8 ∧ sent0.sentLen = 0) := by decide

/-- The three ways an interrupt bit falls. -/
theorem witness_IrqBitsAreSticky :
    (∃ t, step { atCmd 0x31 with irqStatus := 0x20 } = .next t ∧ t.irqStatus = 0) ∧
    (∃ t, step { sent0 with irqStatus := 0x20, agenda := [.powerOn] } = .next t ∧ t.irqStatus = 0) ∧
    (∃ t, step { sent0 with irqStatus := 0x20, agenda := [wrReg .irqStatus 0xFF] } = .next t ∧ t.irqStatus = 0) ∧
    (0x20#8).getLsbD 5 = true ∧ (0#8).getLsbD 5 = false := by
  refine ⟨?_, ?_, ?_, by decide, by decide⟩
  · obtain ⟨t, h, ht⟩ := next_of_holds (r := step { atCmd 0x31 with irqStatus := 0x20 }) (p := fun t => t.irqStatus == 0)
      (by decide +kernel)
    exact ⟨t, h, eq_of_beq ht⟩
  · obtain ⟨t, h, ht⟩ := next_of_holds (r := step { sent0 with irqStatus := 0x20, agenda := [.powerOn] })
      (p := fun t => t.irqStatus == 0) (by decide +kernel)
    exact ⟨t, h, eq_of_beq ht⟩
  · obtain ⟨t, h, ht⟩ := next_of_holds (r := step { sent0 with irqStatus := 0x20, agenda := [wrReg .irqStatus 0xFF] })
      (p := fun t => t.irqStatus == 0) (by decide +kernel)
    exact ⟨t, h, eq_of_beq ht⟩

theorem witness_OnlyCommandsWriteCodeAndResults :
    ∃ t, step { atCmd 0x14 with res0 := 7 } = .next t ∧ t.res0 ≠ ({ atCmd 0x14 with res0 := 7 } : State).res0 := by
  obtain ⟨t, h, ht⟩ := next_of_holds (r := step { atCmd 0x14 with res0 := 7 }) (p := fun t => decide (t.res0 ≠ 7)) (by decide +kernel)
  exact ⟨t, h, of_decide_eq_true ht⟩

theorem witness_CommandsKeepOperandsAndConfiguration :
    Instr.txTick ≠ .srst ∧ (∃ t, exec .txTick sent0 = .next t) ∧ ∃ t, step (atCmd 0x12) = .next t :=
  ⟨by decide, exists_next_of_holds (p := anyNext) (by decide +kernel), exists_next_of_holds (p := anyNext) (by decide +kernel)⟩

/-- The last bit of the shortest packet. -/
theorem witness_SingleBitFlipsAreRejected : 63 < 8 * (encodePacket 3 []).length := by decide

theorem witness_CkCrcFollowsItsRule :
    (args 0 16384 1 sender).params.pramBytes < (args 0 16384 1 sender).arg1.toNat + (args 0 16384 1 sender).arg2.toNat ∧
    (args 0 16384 0 sender).arg1.toNat + (args 0 16384 0 sender).arg2.toNat ≤ (args 0 16384 0 sender).params.pramBytes ∧
    (args 0 16384 0 sender).pram.readBytes 16384 0 = some [] ∧
    (args 0 8 2 sender).arg1.toNat + (args 0 8 2 sender).arg2.toNat ≤ (args 0 8 2 sender).params.pramBytes ∧
    (args 0 8 2 sender).pram.readBytes (args 0 8 2 sender).arg1.toNat (args 0 8 2 sender).arg2.toNat = some [0x41, 0x42] := by decide

theorem witness_CkEncFollowsItsRule :
    (args 0 0 1025 sender).mss.toNat < (args 0 0 1025 sender).arg2.toNat ∧
    ((args 0 16376 1 sender).arg2.toNat ≤ (args 0 16376 1 sender).mss.toNat ∧
      (args 0 16376 1 sender).params.pramBytes < (args 0 16376 1 sender).arg1.toNat + (8 + (args 0 16376 1 sender).arg2.toNat)) ∧
    ((args 0 0 2 sender).arg2.toNat ≤ (args 0 0 2 sender).mss.toNat ∧
      (args 0 0 2 sender).arg1.toNat + (8 + (args 0 0 2 sender).arg2.toNat) ≤ (args 0 0 2 sender).params.pramBytes ∧
      (args 0 0 2 sender).pram.readBytes ((args 0 0 2 sender).arg1.toNat + 8) (args 0 0 2 sender).arg2.toNat =
        some [0x41, 0x42]) := by decide

theorem witness_CkDecFollowsItsRule :
    (args 0 252 8 receiver).params.pramBytes < (args 0 252 8 receiver).arg1.toNat + (args 0 252 8 receiver).arg2.toNat ∧
    ((args 0 0 7 receiver).arg1.toNat + (args 0 0 7 receiver).arg2.toNat ≤ (args 0 0 7 receiver).params.pramBytes ∧
      (args 0 0 7 receiver).arg2.toNat < 8) ∧
    (let s := args 0 20 8 receiver
     s.arg1.toNat + s.arg2.toNat ≤ s.params.pramBytes ∧ 8 ≤ s.arg2.toNat ∧
      s.pram.readBytes s.arg1.toNat 8 = some (packet0.take 8)) := by decide

/-- The third clause on a valid and on an invalid datagram. -/
theorem witness_CkVfyFollowsItsRule :
    (args 0 252 8 receiver).params.pramBytes < (args 0 252 8 receiver).arg1.toNat + (args 0 252 8 receiver).arg2.toNat ∧
    ((args 0 0 7 receiver).arg1.toNat + (args 0 0 7 receiver).arg2.toNat ≤ (args 0 0 7 receiver).params.pramBytes ∧
      (args 0 0 7 receiver).arg2.toNat < 8) ∧
    (let s := args 0 20 10 receiver
     s.arg1.toNat + s.arg2.toNat ≤ s.params.pramBytes ∧ 8 ≤ s.arg2.toNat ∧
      s.pram.readBytes s.arg1.toNat s.arg2.toNat = some packet0 ∧
      digest (wordBE32 (packet0.take 4)) (packet0.drop 8) = wordBE32 ((packet0.drop 4).take 4)) ∧
    (let s := args 0 20 9 receiver
     s.arg1.toNat + s.arg2.toNat ≤ s.params.pramBytes ∧ 8 ≤ s.arg2.toNat ∧
      s.pram.readBytes s.arg1.toNat s.arg2.toNat = some (packet0.take 9) ∧
      digest (wordBE32 ((packet0.take 9).take 4)) ((packet0.take 9).drop 8) ≠ wordBE32 (((packet0.take 9).drop 4).take 4)) := by
  decide +kernel

theorem witness_TxSendRefusesInCheckOrder :
    ({ sender with trkState := .txFailed } : State).trkState = .txFailed ∧
    ({ sender with trkState := .txDone } : State).trkState = .txDone ∧
    sender.trkState = .txOpen ∧
    (args 0 0 1025 sender).mss.toNat < (args 0 0 1025 sender).arg2.toNat ∧
    ((args 0 16377 0 sender).arg2.toNat ≤ (args 0 16377 0 sender).mss.toNat ∧
      (args 0 16377 0 sender).params.pramBytes < (args 0 16377 0 sender).arg1.toNat + (8 + (args 0 16377 0 sender).arg2.toNat)) ∧
    ((args 0 16376 0 sender).arg1.toNat + (8 + (args 0 16376 0 sender).arg2.toNat) ≤ (args 0 16376 0 sender).params.pramBytes ∧
      ({ args 0 16376 0 sender with nextSeq := 0xFFFFFFFF } : State).nextSeq = 0xFFFFFFFF) ∧
    (sent0.nextSeq ≠ 0xFFFFFFFF ∧ sent0.win.toNat ≤ sent0.trk.countP (·.valid)) := by decide

/-- With the lowest free entry 0, and with it 1 behind a pending one. -/
theorem witness_TxSendRecordsThePacket :
    (let s := args 0 0 2 sender
     s.trkState = .txOpen ∧ s.arg2.toNat ≤ s.mss.toNat ∧ s.arg1.toNat + (8 + s.arg2.toNat) ≤ s.params.pramBytes ∧
      s.nextSeq ≠ 0xFFFFFFFF ∧ s.trk.countP (·.valid) < s.win.toNat ∧
      s.pram.readBytes (s.arg1.toNat + 8) s.arg2.toNat = some [0x41, 0x42] ∧ 0 < s.trk.length ∧
      (s.trk.getD 0 Entry.empty).valid = false ∧ ∀ j, j < 0 → (s.trk.getD j Entry.empty).valid = true) ∧
    (let s := args 0 0 2 { sent0 with win := 2 }
     s.trk.countP (·.valid) < s.win.toNat ∧ (s.trk.getD 1 Entry.empty).valid = false ∧
      ∀ j, j < 1 → (s.trk.getD j Entry.empty).valid = true) := by decide

/-- Each outcome of TX.ACK; the last two with the transfer open and with it closing. -/
theorem witness_TxAckFollowsItsRule :
    (args 0 16382 4 sent0).params.pramBytes < (args 0 16382 4 sent0).arg1.toNat + (args 0 16382 4 sent0).arg2.toNat ∧
    ((args 0 1024 3 sent0).arg1.toNat + (args 0 1024 3 sent0).arg2.toNat ≤ (args 0 1024 3 sent0).params.pramBytes ∧
      (args 0 1024 3 sent0).arg2.toNat ≠ 4) ∧
    (let s := args 0 1024 4 sent0
     s.arg1.toNat + 4 ≤ s.params.pramBytes ∧ s.arg2.toNat = 4 ∧ s.pram.readBytes s.arg1.toNat 4 = some [0, 0, 0, 0] ∧
      wordBE32 [0, 0, 0, 0] = 0 ∧ 0 < s.trk.length ∧ (s.trk.getD 0 Entry.empty).valid = true ∧
      (s.trk.getD 0 Entry.empty).seq = 0 ∧
      ¬ (s.trkState = .txClosing ∧ (s.trk.set 0 Entry.empty).countP (·.valid) = 0)) ∧
    (let s := { args 0 1024 4 sent0 with trkState := .txClosing }
     s.trkState = .txClosing ∧ (s.trk.set 0 Entry.empty).countP (·.valid) = 0) := by decide

theorem witness_TxAckFollowsItsRule_stale : ¬ sender.pending 0 ∧ sender.pram.readBytes 1024 4 = some [0, 0, 0, 0] := by
  refine ⟨?_, by decide⟩
  rintro ⟨e, he, hv, _⟩
  have : ∀ e ∈ sender.trk, e.valid = false := by decide
  simp [this e he] at hv

/-- A tick that raises nothing and exhausts nothing, and each clause on an entry: invalid, aged below TIMEOUT, exhausted, and
re-armed. -/
theorem witness_TickStepAgesEveryEntry :
    ({ sent0 with trkState := .txDone } : State).trkState = .txDone ∧ sent0.ticking ∧ 0 < sent0.trk.length ∧
    sent0.trk.any sent0.wearsOut = false ∧ sent0.trk.countP sent0.asksRetx = 0 ∧
    (sent0.trk.getD 1 Entry.empty).valid = false ∧
    ((sent0.trk.getD 0 Entry.empty).valid = true ∧
      (BitVec.ofNat 16 (min ((sent0.trk.getD 0 Entry.empty).age.toNat + 1) 0xFFFF)).toNat < sent0.timeout.toNat) ∧
    (let s := { sent0 with timeout := 1, retry := 2, trk := sent0.trk.set 0 { entry0 with retries := 2 } }
     s.ticking ∧ s.trk.any s.wearsOut = true ∧
      s.timeout.toNat ≤ (BitVec.ofNat 16 (min ((s.trk.getD 0 Entry.empty).age.toNat + 1) 0xFFFF)).toNat ∧ s.retry ≠ 0 ∧
      s.retry.toNat ≤ (s.trk.getD 0 Entry.empty).retries.toNat) ∧
    (let s := { sent0 with timeout := 1, retry := 2, trk := sent0.trk.set 0 { entry0 with retries := 1 } }
     s.ticking ∧ s.trk.countP s.asksRetx = 1 ∧
      s.timeout.toNat ≤ (BitVec.ofNat 16 (min ((s.trk.getD 0 Entry.empty).age.toNat + 1) 0xFFFF)).toNat ∧
      (s.retry = 0 ∨ (s.trk.getD 0 Entry.empty).retries.toNat < s.retry.toNat)) := by decide

/-- A state with an exhausted entry, and one with none. -/
theorem witness_TickFailsOnTheLowestExhausted :
    (let s := { sent0 with timeout := 1, retry := 2, trk := sent0.trk.set 0 { entry0 with retries := 2 } }
     (s.trkState = .txOpen ∨ s.trkState = .txClosing) ∧
      ∃ e ∈ s.trk, e.valid = true ∧ s.timeout.toNat ≤ min (e.age.toNat + 1) 0xFFFF ∧ s.retry ≠ 0 ∧
        s.retry.toNat ≤ e.retries.toNat) ∧
    ((sent0.trkState = .txOpen ∨ sent0.trkState = .txClosing) ∧
      ¬ ∃ e ∈ sent0.trk, e.valid = true ∧ sent0.timeout.toNat ≤ min (e.age.toNat + 1) 0xFFFF ∧ sent0.retry ≠ 0 ∧
        sent0.retry.toNat ≤ e.retries.toNat) := by decide

/-- One tick before TIMEOUT = 2, and at it. -/
theorem witness_EntriesExpireAtTheTimeoutthTick :
    let s := { sent0 with timeout := 2, retry := 1 }
    0 < s.trk.length ∧ (s.trk.getD 0 Entry.empty).valid = true ∧ (s.trk.getD 0 Entry.empty).age = 0 ∧ 1 ≤ s.timeout.toNat ∧
    (s.trk.getD 0 Entry.empty).retries.toNat < s.retry.toNat ∧ (∀ k, k < 2 → (State.tickStep^[k] s).ticking) ∧
    1 < s.timeout.toNat ∧ 2 = s.timeout.toNat := by decide +kernel

/-- RETRY = 1, TIMEOUT = 1: one tick before the second expiry, and at it. -/
theorem witness_ExhaustionComesAfterRetryPlusOneTimeouts :
    let s := { sent0 with timeout := 1, retry := 1 }
    0 < s.trk.length ∧ (s.trk.getD 0 Entry.empty).valid = true ∧ (s.trk.getD 0 Entry.empty).age = 0 ∧
    (s.trk.getD 0 Entry.empty).retries = 0 ∧ 1 ≤ s.timeout.toNat ∧ s.retry ≠ 0 ∧
    (∀ k, k ≤ 1 → (State.tickStep^[k] s).ticking) ∧
    0 + 1 < (s.retry.toNat + 1) * s.timeout.toNat ∧ 1 + 1 = (s.retry.toNat + 1) * s.timeout.toNat := by decide +kernel

/-- The tick that enters FAILED, and DONE. -/
theorem witness_TxTickReportsItsTickStep :
    (let s := { sent0 with timeout := 1, retry := 2, trk := sent0.trk.set 0 { entry0 with retries := 2 } }
     s.trkState ≠ .txFailed ∧ s.tickStep.trkState = .txFailed) ∧
    ({ sent0 with trkState := .txDone } : State).trkState = .txDone ∧ sent0.ticking := by decide

/-- No request, and two requests of which the lowest stands in entry 1. -/
theorem witness_TxRetxTakesTheLowestRequest :
    (∀ e ∈ sent0.trk, e.valid = true → e.rq = false) ∧
    (let s := { sent0 with trk := [{ entry0 with seq := 2, rq := true }, { entry0 with seq := 1, rq := true }] }
     1 < s.trk.length ∧ (s.trk.getD 1 Entry.empty).valid = true ∧ (s.trk.getD 1 Entry.empty).rq = true ∧
      ∀ j, j < s.trk.length → j ≠ 1 → (s.trk.getD j Entry.empty).valid = true → (s.trk.getD j Entry.empty).rq = true →
        (s.trk.getD 1 Entry.empty).seq.toNat < (s.trk.getD j Entry.empty).seq.toNat) := by decide

theorem witness_TxQryFollowsItsRule :
    ¬ sender.pending sender.arg0 ∧
    (0 < sent0.trk.length ∧ (sent0.trk.getD 0 Entry.empty).valid = true ∧
      (sent0.trk.getD 0 Entry.empty).seq = sent0.arg0) := by
  refine ⟨?_, by decide⟩
  rintro ⟨e, he, hv, _⟩
  have : ∀ e ∈ sender.trk, e.valid = false := by decide
  simp [this e he] at hv

/-- The four transitions of rule R94. -/
theorem witness_TrkStateChangesOnlyByItsTransitions :
    (args 0 64 0 sender).pram.readBytes 72 0 = some (args 0 64 0 sender).sentinel ∧
    (let s := { sent0 with timeout := 1, retry := 2, trk := sent0.trk.set 0 { entry0 with retries := 2 } }
     s.trk.any s.wearsOut = true) ∧
    holds (step (args 0 64 0 { sender with agenda := [wrReg .cmd 0x10] })) (fun t => t.trkState == .txClosing) = true ∧
    holds (step (args 0 1024 4 { sent0 with trkState := .txClosing, agenda := [wrReg .cmd 0x11] }))
      (fun t => t.trkState == .txDone) = true ∧
    holds (step { sent0 with timeout := 1, retry := 2, trk := sent0.trk.set 0 { entry0 with retries := 2 }, agenda := [.tick] })
      (fun t => t.trkState == .txFailed) = true ∧
    holds (step { sent0 with trkState := .txFailed, agenda := [wrReg .cmd 0x15] }) (fun t => t.trkState == .txOpen) = true := by
  decide +kernel

/-- The outcomes that insert nothing, each at the edge of its check. -/
theorem witness_RxPutDropsInCheckOrder :
    (args 0 247 10 receiver).params.pramBytes < (args 0 247 10 receiver).arg1.toNat + (args 0 247 10 receiver).arg2.toNat ∧
    ((args 0 246 10 receiver).arg1.toNat + (args 0 246 10 receiver).arg2.toNat ≤ (args 0 246 10 receiver).params.pramBytes ∧
      ({ args 0 246 10 receiver with ackq := [0, 0] } : State).ackq.length = (args 0 246 10 receiver).params.ackqDepth) ∧
    ((args 0 0 7 receiver).ackq.length ≠ (args 0 0 7 receiver).params.ackqDepth ∧ (args 0 0 7 receiver).arg2.toNat < 8) ∧
    (let s := { args 0 20 10 receiver with mss := 1 }
     8 ≤ s.arg2.toNat ∧ s.datagram = some packet0 ∧ s.mss.toNat < s.arg2.toNat - 8) ∧
    (let s := args 0 20 9 receiver
     8 ≤ s.arg2.toNat ∧ s.datagram = some (packet0.take 9) ∧ s.arg2.toNat - 8 ≤ s.mss.toNat ∧
      datagramValid (packet0.take 9) = false) := by decide +kernel

/-- V-RAB-4: seq 4 is the first number ahead; V-RAB-6: seq 0xFFFFFFFF. -/
theorem witness_RxPutDropsInCheckOrder_range :
    let d := encodePacket 4 [0x78]
    let top := encodePacket 0xFFFFFFFF [0x7a]
    let s := args 0 32 9 (receiver.memWrite 32 d)
    let r := args 0 32 9 (receiver.memWrite 32 top)
    (s.datagram = some d ∧ wordBE32 (d.take 4) = 4 ∧ s.arg2.toNat - 8 ≤ s.mss.toNat ∧ datagramValid d = true ∧
      s.rabState ≠ .complete ∧ s.expSeq.toNat + s.params.rxSlots ≤ (4#32).toNat) ∧
    (r.datagram = some top ∧ wordBE32 (top.take 4) = 0xFFFFFFFF ∧ datagramValid top = true) := by decide +kernel

/-- V-RAB-7 inserts; V-RAB-7b is a duplicate. -/
theorem witness_RxPutAcknowledgesAndInserts :
    (let s := args 0 0 10 receiver
     s.arg1.toNat + s.arg2.toNat ≤ s.params.pramBytes ∧ s.ackq.length ≠ s.params.ackqDepth ∧ 8 ≤ s.arg2.toNat ∧
      s.datagram = some packet1 ∧ wordBE32 (packet1.take 4) = 1 ∧ s.arg2.toNat - 8 ≤ s.mss.toNat ∧ datagramValid packet1 = true ∧
      (1 : Word) ≠ 0xFFFFFFFF ∧ (1#32).toNat < s.expSeq.toNat + s.params.rxSlots ∧ (1#32).toNat % s.params.rxSlots = 1 ∧
      s.rabState ≠ .complete ∧ s.expSeq.toNat ≤ (1#32).toNat ∧ (s.slot 1).valid = false) ∧
    (let s := args 0 0 10 buffered
     s.ackq.length ≠ s.params.ackqDepth ∧ s.datagram = some packet1 ∧ (s.slot 1).valid = true) := by decide +kernel

/-- The cursor's slot: empty; the sentinel; a payload that fits exactly; one that is a byte too long. -/
theorem witness_DeliveryLoopTurn :
    ¬ (buffered.rabState = .buffering ∧ (buffered.slot 0).valid = true ∧ (buffered.slot 0).seq = buffered.expSeq) ∧
    (let s := { buffered with expSeq := 1, slots := buffered.slots.set 1 { (buffered.slot 1) with sent := true } }
     s.rabState = .buffering ∧ (s.slot 1).valid = true ∧ (s.slot 1).seq = s.expSeq ∧ (s.slot 1).sent = true) ∧
    (let s := { buffered with expSeq := 1, dlv := [0, 0] }
     s.rabState = .buffering ∧ (s.slot 1).valid = true ∧ (s.slot 1).seq = s.expSeq ∧ (s.slot 1).sent = false ∧
      s.expSeq.toNat % s.params.rxSlots = 1 ∧ s.dlv.length + (s.slot 1).len.toNat ≤ s.params.dlvBytes) ∧
    (let s := { buffered with expSeq := 1, dlv := [0, 0, 0] }
     s.params.dlvBytes < s.dlv.length + (s.slot 1).len.toNat) := by decide

/-- Two turns: V-RAB-9c's delivery loop. -/
theorem witness_DrainRunsTheLoopToItsEnd :
    let s := { buffered with
      slots := buffered.slots.set 0 { valid := true, seq := 0, len := 2, sent := false, data := [0x41, 0x42] } }
    1 < s.drain.2 := by decide

theorem witness_RxPopFollowsItsRule :
    receiver.dlv = [] ∧ ({ buffered with dlv := [0x41] } : State).dlv = 0x41 :: [] ∧
    State.drain { ({ buffered with dlv := [0x41] } : State).ends .ok 0 0 0 with dlv := [] } =
      (({ buffered with dlv := [] } : State).ends .ok 0 0 0, 0) := by decide

theorem witness_RxAckqFollowsItsRule :
    (args 0 253 0 receiver).params.pramBytes < (args 0 253 0 receiver).arg1.toNat + 4 ∧
    ((args 0 252 0 receiver).arg1.toNat + 4 ≤ (args 0 252 0 receiver).params.pramBytes ∧ (args 0 252 0 receiver).ackq = []) ∧
    ((args 0 252 0 buffered).arg1.toNat + 4 ≤ (args 0 252 0 buffered).params.pramBytes ∧
      (args 0 252 0 buffered).ackq = 1 :: []) := by decide

/-- Seq 1 is held; seq 5 maps to the same slot and is not. -/
theorem witness_RxQryFollowsItsRule :
    (let s := args 1 0 0 buffered
     s.arg0.toNat % s.params.rxSlots = 1 ∧ (s.slot 1).valid = true ∧ (s.slot 1).seq = s.arg0) ∧
    (let s := args 5 0 0 buffered
     s.arg0.toNat % s.params.rxSlots = 1 ∧ ¬ ((s.slot 1).valid = true ∧ (s.slot 1).seq = s.arg0)) := by decide

/-- The transitions of rule R110; V-RAB-15 makes both in one RX.PUT. -/
theorem witness_RabStateChangesOnlyByItsTransitions :
    holds (step (args 0 32 8 { receiver.memWrite 32 [0, 0, 0, 0, 0x21, 0x44, 0xdf, 0x1c] with agenda := [wrReg .cmd 0x20] }))
      (gives .ok 0 0 0x107 fun t => t.rabState == .complete && t.expSeq == 1 && t.irqStatus == 0x42) = true ∧
    holds (step (args 0 0 10 { receiver with agenda := [wrReg .cmd 0x20] })) (fun t => t.rabState == .buffering) = true ∧
    holds (step
        { buffered with
          expSeq := 1, dlv := [0x41], agenda := [wrReg .cmd 0x21]
          slots := buffered.slots.set 1 { valid := true, seq := 1, len := 0, sent := true, data := [] } })
      (fun t => t.rabState == .complete) = true ∧
    holds (step { buffered with agenda := [wrReg .cmd 0x24] }) (fun t => t.rabState == .awaiting) = true := by decide +kernel

/-- A drop and an acknowledgment. -/
theorem witness_DroppedDatagramsAreNotAcknowledged :
    (∃ t, exec .rxPut (args 0 20 9 receiver) = .next t ∧ t.code = .csumMismatch) ∧
    (∃ t, exec .rxPut (args 0 0 10 buffered) = .next t ∧ t.code = .duplicate) := by
  constructor
  · obtain ⟨t, h, ht⟩ := next_of_holds (r := exec .rxPut (args 0 20 9 receiver)) (p := fun t => t.code == .csumMismatch)
      (by decide +kernel)
    exact ⟨t, h, eq_of_beq ht⟩
  · obtain ⟨t, h, ht⟩ := next_of_holds (r := exec .rxPut (args 0 0 10 buffered)) (p := fun t => t.code == .duplicate)
      (by decide +kernel)
    exact ⟨t, h, eq_of_beq ht⟩

/-- One command for each of the three clauses. -/
theorem witness_CommandsWriteOnlyTheirPramBytes :
    (∃ t, exec .ckEnc (args 0 0 2 sender) = .next t) ∧ ¬ ((args 0 0 2 sender).arg1.toNat ≤ 8 ∧ 8 < (args 0 0 2 sender).arg1.toNat + 8) ∧
    (∃ t, exec .rxAckq (args 0 200 0 buffered) = .next t) ∧ (∃ t, exec .rxPut (args 0 0 10 receiver) = .next t) :=
  ⟨exists_next_of_holds (p := anyNext) (by decide +kernel), by decide,
    exists_next_of_holds (p := anyNext) (by decide +kernel), exists_next_of_holds (p := anyNext) (by decide +kernel)⟩

theorem witness_DirectionsAreIndependent :
    (∃ t, exec .txSend (args 0 0 2 sender) = .next t) ∧ (∃ t, exec .rxPut (args 0 0 10 receiver) = .next t) :=
  ⟨exists_next_of_holds (p := anyNext) (by decide +kernel), exists_next_of_holds (p := anyNext) (by decide +kernel)⟩

/-- A refusal of each kind the statement names. -/
theorem witness_RefusedCommandsChangeNothing :
    holds (exec .txAck (args 0 1024 4 sender)) (fun t => t.code ∈ [Code.empty, .windowFull, .staleAck]) = true ∧
    holds (exec .ckDec (args 0 20 7 receiver)) (fun t => t.code ∈ [Code.framing, .csumMismatch]) = true ∧
    holds (exec .ckCrc (args 0 16384 1 sender)) (fun t => t.code ∈ [Code.badAddr, .badLen, .illegalCmd]) = true := by decide +kernel

/-- Every code of rule R132 a command can end with, from a command that is listed for it. -/
theorem witness_CommandsEndWithTheirListedCodes :
    holds (exec .txRetx sender) (fun t => t.code == .empty) = true ∧
    holds (exec .txSend (args 0 0 2 sent0)) (fun t => t.code == .windowFull) = true ∧
    holds (exec .ckDec (args 0 0 7 receiver)) (fun t => t.code == .framing) = true ∧
    holds (exec .ckVfy (args 0 20 9 receiver)) (fun t => t.code == .csumMismatch) = true ∧
    holds (exec .rxPut (args 0 0 10 buffered)) (fun t => t.code == .duplicate) = true ∧
    holds (exec .rxPut (args 0 32 9 (receiver.memWrite 32 (encodePacket 4 [0x78])))) (fun t => t.code == .outOfRange) = true ∧
    holds (exec .txAck (args 0 1024 4 sender)) (fun t => t.code == .staleAck) = true ∧
    holds (exec .rxPut { buffered with ackq := [0, 0] }) (fun t => t.code == .ackqFull) = true ∧
    holds (exec .txSend { sender with trkState := .txDone }) (fun t => t.code == .txClosed) = true ∧
    holds (exec .txSend { sender with trkState := .txFailed }) (fun t => t.code == .txFailed) = true ∧
    holds (exec .txSend { sender with nextSeq := 0xFFFFFFFF }) (fun t => t.code == .seqExhausted) = true ∧
    holds (exec .rxAckq (args 0 253 0 receiver)) (fun t => t.code == .badAddr) = true ∧
    holds (exec .ckEnc (args 0 0 1025 sender)) (fun t => t.code == .badLen) = true := by decide +kernel

theorem witness_ResetMeetsTheInvariant : small.legal = true := by decide

/-! ### States that meet the invariant -/

/-- The smallest packet RAM, and two of everything. -/
def tiny : Params := { txSlots := 2, rxSlots := 2, ackqDepth := 2, mssMax := 4, pramBytes := 16, dlvBytes := 4 }

/-- Packet RAM written whole: Encode(0, "AB"), then six zeros. -/
def tinyRam : Memory := Memory.writeBytes [] 0 (packet0 ++ [0, 0, 0, 0, 0, 0])

/-- Seq 0 is pending and seq 1 retired; seq 1 waits in its slot for seq 0, whose packet ARG1 and ARG2 name; a tick comes next. -/
def busy : State :=
  { State.resetOf tiny with
    arg2 := 10, win := 2, nextSeq := 2, trk := [entry0, Entry.empty]
    rabState := .buffering, ackq := [1], irqStatus := 0x02, pram := tinyRam, agenda := [.tick]
    slots := [Slot.empty, { valid := true, seq := 1, len := 2, sent := false, data := [0x43, 0x44] }] }

theorem busy_inv : BlockInv busy where
  config := ⟨by decide, by decide, by decide, by decide, by decide, by decide, by decide⟩
  storage := ⟨by decide, by decide, by decide, by decide⟩
  tracker := ⟨by decide, by decide, by decide, by decide, by decide, by decide, by decide, by decide, by decide⟩
  reassembly :=
    { length := by decide
      placed := by
        intro j hj hv
        obtain rfl | rfl : j = 0 ∨ j = 1 := by have : busy.params.rxSlots = 2 := rfl; omega
        · exact absurd hv (by decide)
        · exact ⟨by decide, by decide, by decide, by decide, by decide, by decide⟩
      cleared := by decide
      awaiting := by decide
      drained := by decide }

theorem witness_StatusReadPacksItsFields : BlockInv busy := busy_inv

theorem witness_StepKeepsTheInvariant : BlockInv busy ∧ ∃ t, step busy = .next t :=
  ⟨busy_inv, exists_next_of_holds (p := anyNext) (by decide +kernel)⟩

theorem witness_EveryStepCompletes : BlockInv busy ∧ PramWritten busy := ⟨busy_inv, by unfold PramWritten; decide⟩

/-- Without the writes: a step that is refused, in a state that meets the invariant. -/
theorem witness_EveryStepCompletes_refused : ∃ r, step { receiver with agenda := [rdPram .byte 255] } = .refused r :=
  ⟨.unwrittenPram, refused_of_refuses (by decide +kernel)⟩

theorem witness_RetiredPacketsAreNotResurrected :
    BlockInv busy ∧ (1#32).toNat < busy.nextSeq.toNat ∧ ¬ busy.pending 1 ∧
    (∀ m u, m < 1 → Sys2Proof.core.run m busy = .next u → ¬ u.executes .txRst ∧ ¬ u.executes .srst ∧ ¬ u.powersOn) ∧
    ∃ t, Sys2Proof.core.run 1 busy = .next t := by
  refine ⟨busy_inv, by decide, ?_, ?_, ?_⟩
  · rintro ⟨e, he, hv, hs⟩
    have : ∀ e ∈ busy.trk, e.valid = true → e.seq ≠ 1 := by decide
    exact this e he hv hs
  · intro m u hm hu
    obtain rfl : m = 0 := by omega
    have : u = busy := (Host.Outcome.next.inj hu).symm
    subst this
    simp only [State.executes, State.powersOn]
    decide
  · obtain ⟨t, ht⟩ := exists_next_of_holds (r := step busy) (p := anyNext) (by decide +kernel)
    exact ⟨t, by simp [Host.Core.run, Sys2Proof.core, ht]⟩

theorem witness_WindowBoundIsKept :
    BlockInv busy ∧ (∃ t, step busy = .next t) ∧ (∀ v, ¬ busy.writes .win v) ∧ busy.txCount ≤ busy.win.toNat :=
  ⟨busy_inv, exists_next_of_holds (p := anyNext) (by decide +kernel), by simp [State.writes, busy, wrReg], by decide⟩

theorem witness_DuplicateDatagramsDeliverOnce :
    BlockInv busy ∧ ∃ t, exec .rxPut busy = .next t ∧ ∃ u, exec .rxPut t = .next u := by
  refine ⟨busy_inv, ?_⟩
  obtain ⟨t, ht, h⟩ := next_of_holds (r := exec .rxPut busy) (p := fun t => holds (exec .rxPut t) anyNext) (by decide +kernel)
  exact ⟨t, ht, exists_next_of_holds h⟩

/-- One transfer: "AB", "CD", the empty sentinel. -/
def transfer (k : Nat) : List Byte :=
  match k with
  | 0 => [0x41, 0x42]
  | 1 => [0x43, 0x44]
  | _ => []

theorem busy_stream : Stream transfer 2 [] busy where
  bytes := by decide
  buffered := by decide
  cursor := by decide
  complete := by decide

/-- `busy` after the packet that was missing: both payloads delivered. -/
def fed : State :=
  { busy with
    expSeq := 2, dlv := [0x41, 0x42, 0x43, 0x44], rxBytes := 4, ackq := [1, 0], slots := [Slot.empty, Slot.empty] }

theorem fed_inv : BlockInv fed where
  config := ⟨by decide, by decide, by decide, by decide, by decide, by decide, by decide⟩
  storage := ⟨by decide, by decide, by decide, by decide⟩
  tracker := ⟨by decide, by decide, by decide, by decide, by decide, by decide, by decide, by decide, by decide⟩
  reassembly :=
    { length := by decide
      placed := by
        intro j hj hv
        obtain rfl | rfl : j = 0 ∨ j = 1 := by have : fed.params.rxSlots = 2 := rfl; omega
        · exact absurd hv (by decide)
        · exact absurd hv (by decide)
      cleared := by decide
      awaiting := by decide
      drained := by decide }

theorem witness_DeliveredBytes_start : (2 : Nat) < 0xFFFFFFFF ∧ BlockInv busy ∧ ∃ t, exec .rxRst busy = .next t :=
  ⟨by decide, busy_inv, exists_next_of_holds (p := anyNext) (by decide +kernel)⟩

theorem witness_DeliveredBytes_put :
    BlockInv busy ∧ Stream transfer 2 [] busy ∧ transfer 2 = busy.sentinel ∧ (∀ k, k < 2 → transfer k ≠ busy.sentinel) ∧
    (∀ d, busy.datagram = some d →
      datagramValid d = false ∨ ∃ k, k ≤ 2 ∧ d = encodePacket (BitVec.ofNat 32 k) (transfer k)) ∧
    ∃ t, exec .rxPut busy = .next t := by
  refine ⟨busy_inv, busy_stream, by decide, by decide, ?_, exists_next_of_holds (p := anyNext) (by decide +kernel)⟩
  intro d hd
  have h : busy.datagram = some packet0 := by decide
  obtain rfl : packet0 = d := Option.some.inj (h.symm.trans hd)
  exact .inr ⟨0, by decide, by decide +kernel⟩

theorem witness_DeliveredBytes_pop :
    BlockInv fed ∧ Stream transfer 2 [] fed ∧ fed.dlv = 0x41 :: [0x42, 0x43, 0x44] ∧ ∃ t, exec .rxPop fed = .next t :=
  ⟨fed_inv, ⟨by decide, by decide, by decide, by decide⟩, by decide, exists_next_of_holds (p := anyNext) (by decide +kernel)⟩

/-- RX.POP with nothing delivered yet. -/
theorem witness_DeliveredBytes_empty :
    Stream transfer 2 [] busy ∧ busy.dlv = [] ∧ ∃ t, exec .rxPop busy = .next t :=
  ⟨busy_stream, by decide, exists_next_of_holds (p := anyNext) (by decide +kernel)⟩

/-- A step that starts the stream, for each of the three resets. -/
theorem witness_DeliveredBytes_resets :
    (let s := { busy with agenda := [wrReg .cmd 0x24] }
     s.executes .rxRst ∧ ∃ t, step s = .next t) ∧
    (let s := { busy with agenda := [wrReg .cmd 0x31] }
     s.executes .srst ∧ ∃ t, step s = .next t) ∧
    (let s := { busy with agenda := [.powerOn] }
     s.powersOn ∧ ∃ t, step s = .next t) := by
  refine ⟨⟨?_, exists_next_of_holds (p := anyNext) (by decide +kernel)⟩,
    ⟨?_, exists_next_of_holds (p := anyNext) (by decide +kernel)⟩,
    ⟨?_, exists_next_of_holds (p := anyNext) (by decide +kernel)⟩⟩
  · unfold State.executes; decide
  · unfold State.executes; decide
  · unfold State.powersOn; decide

/-- A step that is none of those the stream is about: a tick. -/
theorem witness_DeliveredBytes_other :
    Stream transfer 2 [] busy ∧ (∃ t, step busy = .next t) ∧ ¬ busy.executes .rxPut ∧ ¬ busy.executes .rxPop ∧
    ¬ busy.executes .rxRst ∧ ¬ busy.executes .srst ∧ ¬ busy.powersOn := by
  refine ⟨busy_stream, exists_next_of_holds (p := anyNext) (by decide +kernel), ?_⟩
  simp only [State.executes, State.powersOn]
  decide

/-- The transfer complete, two of its bytes popped. -/
theorem witness_DeliveredBytes_complete :
    let s := { fed with expSeq := 3, rabState := .complete, dlv := [0x43, 0x44] }
    Stream transfer 2 [0x41, 0x42] s ∧ s.rabState = .complete :=
  ⟨⟨by decide, by decide, by decide, by decide⟩, by decide⟩

end Sys2Proof.Tests
end

section
/-! SUPPORT. What reset gives (rule R51), and that a step of a block that meets its invariant completes unless packet RAM is unwritten
(rules R14, R54, R95). -/

namespace Sys2Proof

/-- The ranges of rules R5 and R6, written out. -/
theorem Params.legal_iff (p : Params) :
    p.legal = true ↔
      (1 ≤ p.txSlots ∧ p.txSlots ≤ 255) ∧ (1 ≤ p.rxSlots ∧ p.rxSlots ≤ 255) ∧ (1 ≤ p.ackqDepth ∧ p.ackqDepth ≤ 255) ∧
      (1 ≤ p.mssMax ∧ p.mssMax ≤ 65535) ∧ (16 ≤ p.pramBytes ∧ p.pramBytes ≤ 65536 ∧ p.pramBytes % 16 = 0) ∧
      (p.mssMax ≤ p.dlvBytes ∧ p.dlvBytes ≤ 16777215) := by
  simp only [Params.legal, Bool.and_eq_true, decide_eq_true_eq, and_assoc]

end Sys2Proof

namespace Sys2Proof.Machine

/-! ## The state after reset -/

/-- Every TRK entry is empty after reset (rules R40, R51). -/
theorem eq_empty_of_mem_resetOf_trk {p : Params} {e : Entry} (h : e ∈ (State.resetOf p).trk) : e = Entry.empty :=
  List.eq_of_mem_replicate h

/-- No TRK entry is valid after reset. -/
theorem invalid_of_mem_resetOf_trk {p : Params} {e : Entry} (h : e ∈ (State.resetOf p).trk) : e.valid = false := by
  rw [eq_empty_of_mem_resetOf_trk h]; rfl

/-- Every RAB slot is empty after reset (rules R43, R51). -/
@[simp] theorem resetOf_slot (p : Params) (j : Nat) : (State.resetOf p).slot j = Slot.empty := by
  show (List.replicate p.rxSlots Slot.empty).getD j Slot.empty = Slot.empty
  rw [List.getD_eq_getElem?_getD, List.getElem?_replicate]
  split <;> rfl

/-- The delivery loop has nothing to do in AWAITING (rule R113). -/
theorem drainOne_of_not_buffering {s : State} (h : s.rabState ≠ .buffering) : s.drainOne = none := by
  simp [State.drainOne, h]

theorem resetOf_configInv {p : Params} (h : p.legal = true) : ConfigInv (State.resetOf p) := by
  obtain ⟨⟨htx, -⟩, -, -, ⟨hmss, hmss16⟩, -, -⟩ := p.legal_iff.mp h
  have hm : (State.resetOf p).mss.toNat = p.mssMax := by
    simp [State.resetOf, BitVec.toNat_ofNat, Nat.mod_eq_of_lt (show p.mssMax < 65536 by omega)]
  exact {
    legal := h
    winLow := Nat.le_refl 1
    winHigh := htx
    timeout := by simp [State.resetOf]
    mssLow := by omega
    mssHigh := hm.le
    sentLen := Nat.zero_le 8 }

theorem resetOf_storageInv (p : Params) : StorageInv (State.resetOf p) where
  canonical := rfl
  inside := fun _ hc => nomatch hc
  dlvFits := Nat.zero_le _
  ackqFits := Nat.zero_le _

theorem resetOf_trackerInv (p : Params) : TrackerInv (State.resetOf p) := by
  have hinv : ∀ e ∈ (State.resetOf p).trk, e.valid ≠ true := fun e he => by simp [invalid_of_mem_resetOf_trk he]
  exact {
    length := List.length_replicate
    seqUnique := List.pairwise_of_forall_mem_list fun a ha _ _ hva => absurd hva (hinv a ha)
    seqBelow := fun e he hv => absurd hv (hinv e he)
    oneSentinel := by
      rw [List.countP_eq_zero.mpr fun e he => by simp [hinv e he]]
      exact Nat.zero_le 1
    invalidEmpty := fun _ he _ => eq_empty_of_mem_resetOf_trk he
    inPram := fun e he hv => absurd hv (hinv e he)
    doneEmpty := nofun
    openNoEnd := fun _ e he hv => absurd hv (hinv e he)
    closingHeld := nofun }

theorem resetOf_reassemblyInv (p : Params) : ReassemblyInv (State.resetOf p) where
  length := List.length_replicate
  placed := fun j _ hv => by simp [Slot.empty] at hv
  cleared := fun j _ _ => by simp [Slot.empty]
  awaiting := fun _ => ⟨rfl, fun j _ => by simp [Slot.empty], rfl, rfl⟩
  drained := drainOne_of_not_buffering nofun

/-- The state after reset of every legal build meets the invariant. -/
theorem resetOf_blockInv {p : Params} (h : p.legal = true) : BlockInv (State.resetOf p) where
  config := resetOf_configInv h
  storage := resetOf_storageInv p
  tracker := resetOf_trackerInv p
  reassembly := resetOf_reassemblyInv p

/-! ## Steps that complete -/

/-- The result is a next state, or the refusal of an unwritten read while some byte of packet RAM is unwritten (rule R54). -/
def Completes (s : State) (r : Result) : Prop :=
  (∃ t, r = .next t) ∨ (r = .refused .unwrittenPram ∧ ¬ PramWritten s)

namespace Completes

variable {s : State}

theorem next (t : State) : Completes s (.next t) := .inl ⟨t, rfl⟩

theorem finish (c : Code) (t : State) : Completes s (finish c t) := next (t.complete c)

/-- Both branches of a check complete. -/
theorem ite {c : Prop} [Decidable c] {x y : Result} (hx : c → Completes s x) (hy : ¬ c → Completes s y) :
    Completes s (if c then x else y) := by
  split
  · exact hx ‹_›
  · exact hy ‹_›

/-- The range check of a command: what follows may assume that the range lies in packet RAM. -/
theorem checkRange {t : State} {a n : Nat} {x y : Result} (hx : a + n ≤ t.params.pramBytes → Completes s x)
    (hy : Completes s y) : Completes s (if t.inRange a n then x else y) :=
  ite (fun h => hx ((inRange_iff t a n).mp h)) fun _ => hy

/-- A MemRead inside packet RAM completes when what follows it does: only an unwritten byte can stop it. -/
theorem memRead {a n : Nat} {k : List Byte → Result} (hin : a + n ≤ s.params.pramBytes) (hk : ∀ d, Completes s (k d)) :
    Completes s (s.memRead a n k) := by
  rcases memRead_cases s a n k with ⟨d, -, h⟩ | ⟨hnone, h⟩
  · rw [h]; exact hk d
  · obtain ⟨i, hi, hread⟩ := (Memory.readBytes_eq_none s.pram a n).mp hnone
    refine .inr ⟨h, fun hw => ?_⟩
    simpa [hread] using hw (a + i) (by omega)

end Completes

/-! Every command begins with the prologue, which leaves packet RAM alone: what completes before it completes after it. -/

theorem execCkCrc_completes (s : State) : Completes s.prologue (execCkCrc s) :=
  .checkRange (fun h => .memRead h fun _ => .finish _ _) (.finish _ _)

theorem execCkEnc_completes (s : State) : Completes s.prologue (execCkEnc s) :=
  .ite (fun _ => .finish _ _) fun _ =>
    .checkRange (fun h => .memRead (by omega) fun _ => .finish _ _) (.finish _ _)

theorem execCkDec_completes (s : State) : Completes s.prologue (execCkDec s) :=
  .checkRange
    (fun _ => .ite (fun _ => .finish _ _) fun _ => .memRead (by omega) fun _ => .finish _ _)
    (.finish _ _)

theorem execCkVfy_completes (s : State) : Completes s.prologue (execCkVfy s) :=
  .checkRange
    (fun h => .ite (fun _ => .finish _ _) fun _ =>
      .memRead h fun _ => .ite (fun _ => .finish _ _) fun _ => .finish _ _)
    (.finish _ _)

/-- Below WINDOW_FULL the table has a free entry, because WIN is at most TX_SLOTS (rule R95): TX.SEND does not fault. -/
theorem sendOpen_completes {s : State} (hwin : s.win.toNat ≤ s.trk.length) : Completes s s.sendOpen := by
  unfold State.sendOpen
  refine .ite (fun _ => .finish _ _) fun _ => .checkRange (fun hin => ?_) (.finish _ _)
  refine .ite (fun _ => .finish _ _) fun _ => .ite (fun _ => .finish _ _) fun hroom => ?_
  refine .memRead (by omega) fun p => ?_
  obtain ⟨i, hfree⟩ := freeEntry_isSome (t := s.trk) (lt_of_lt_of_le (not_le.mp hroom) hwin)
  rw [hfree]
  exact .finish _ _

theorem execTxSend_completes {s : State} (hwin : s.win.toNat ≤ s.trk.length) : Completes s.prologue (execTxSend s) := by
  simp only [execTxSend]
  cases s.prologue.trkState with
  | txOpen => exact sendOpen_completes hwin
  | txClosing => exact .finish _ _
  | txDone => exact .finish _ _
  | txFailed => exact .finish _ _

theorem execTxAck_completes (s : State) : Completes s.prologue (execTxAck s) := by
  refine .checkRange (fun hin => .ite (fun hlen => .memRead (by omega) fun d => ?_) fun _ => .finish _ _) (.finish _ _)
  simp only
  cases s.prologue.trk.findIdx? (·.holds (wordBE32 d)) with
  | some i => exact .finish _ _
  | none => exact .finish _ _

theorem execTxRetx_completes (s : State) : Completes s.prologue (execTxRetx s) := by
  simp only [execTxRetx]
  split
  · exact .finish _ _
  · split
    · exact .finish _ _
    · exact .finish _ _

theorem execTxQry_completes (s : State) : Completes s.prologue (execTxQry s) := by
  simp only [execTxQry]
  cases s.prologue.trk.find? (·.holds s.prologue.seqArg) with
  | none => exact .finish _ _
  | some e => exact .finish _ _

theorem putDatagram_completes (s t : State) (d : List Byte) : Completes s (t.putDatagram d) :=
  .ite (fun _ => .finish _ _) fun _ =>
    .ite (fun _ => .ite (fun _ => .finish _ _) fun _ => .finish _ _) fun _ => .finish _ _

theorem execRxPut_completes (s : State) : Completes s.prologue (execRxPut s) :=
  .checkRange
    (fun h => .ite (fun _ => .finish _ _) fun _ => .ite (fun _ => .finish _ _) fun _ =>
      .memRead h fun d => putDatagram_completes _ _ d)
    (.finish _ _)

theorem execRxPop_completes (s : State) : Completes s.prologue (execRxPop s) := by
  simp only [execRxPop]
  cases s.prologue.dlv with
  | nil => exact .finish _ _
  | cons b rest => exact .finish _ _

theorem execRxAckq_completes (s : State) : Completes s.prologue (execRxAckq s) := by
  refine .checkRange (fun _ => ?_) (.finish _ _)
  cases s.prologue.ackq with
  | nil => exact .finish _ _
  | cons seq rest => exact .finish _ _

theorem execRxQry_completes (s : State) : Completes s.prologue (execRxQry s) :=
  .ite (fun _ => .finish _ _) fun _ => .finish _ _

/-- Every command completes; only TX.SEND needs that WIN is at most the number of entries. -/
theorem exec_completes (i : Instr) {s : State} (hwin : s.win.toNat ≤ s.trk.length) : Completes s (exec i s) :=
  match i with
  | .ckCrc => execCkCrc_completes s
  | .ckEnc => execCkEnc_completes s
  | .ckDec => execCkDec_completes s
  | .ckVfy => execCkVfy_completes s
  | .txSend => execTxSend_completes hwin
  | .txAck => execTxAck_completes s
  | .txTick => .finish _ _
  | .txRetx => execTxRetx_completes s
  | .txQry => execTxQry_completes s
  | .txRst => .finish _ _
  | .rxPut => execRxPut_completes s
  | .rxPop => execRxPop_completes s
  | .rxAckq => execRxAckq_completes s
  | .rxQry => execRxQry_completes s
  | .rxRst => .finish _ _
  | .nop => .finish _ _
  | .srst => .finish _ _

theorem execWord_completes (w : Word) {s : State} (hwin : s.win.toNat ≤ s.trk.length) : Completes s (execWord w s) := by
  rcases execWord_cases w s with ⟨i, -, h⟩ | ⟨_, -, h⟩
  · rw [h]; exact exec_completes i hwin
  · rw [h]; exact .finish _ _

/-- An aligned access that begins in packet RAM ends in it, because PRAM_BYTES is a multiple of 16 (rules R5, R55). -/
theorem pram_access_fits {p : Params} {r : BusReq} {o : Nat} (hp : p.legal = true) (herr : r.isError = false)
    (ho : regionOf p r.addr.toNat = .pram o) : o + r.size.bytes ≤ p.pramBytes := by
  obtain ⟨-, -, -, -, ⟨-, -, hmod⟩, -⟩ := p.legal_iff.mp hp
  obtain ⟨haddr, hlt⟩ := pram_of_regionOf ho
  have halign : r.addr.toNat % r.size.bytes = 0 := by
    by_contra hne
    simp [BusReq.isError, hne] at herr
  cases hz : r.size <;> simp only [hz, Size.bytes] at halign ⊢ <;> omega

theorem hostStep_completes (r : BusReq) {s : State} (hlegal : s.params.legal = true) (hwin : s.win.toNat ≤ s.trk.length) :
    Completes s (hostStep r s) := by
  rcases hostStep_cases r s with ⟨-, h⟩ | ⟨herr, -, hread⟩ | ⟨-, -, hwrite⟩
  · rw [h]; exact .next _
  · rcases hread with ⟨g, -, h⟩ | ⟨o, ho, h⟩ | ⟨-, h⟩ <;> rw [h]
    · exact .next _
    · exact .memRead (pram_access_fits hlegal herr ho) fun _ => .next _
    · exact .next _
  · rcases hwrite with ⟨-, h⟩ | ⟨g, -, -, h⟩ | ⟨o, -, h⟩ | ⟨-, h⟩ <;> rw [h]
    · exact execWord_completes r.wdata (s := s.respond false 0) hwin
    · exact .next _
    · exact .next _
    · exact .next _

theorem runEvent_completes (e : Event) {s : State} (hlegal : s.params.legal = true) (hwin : s.win.toNat ≤ s.trk.length) :
    Completes s (runEvent e s) := by
  cases e with
  | host r => exact hostStep_completes r hlegal hwin
  | tick => exact .next _
  | powerOn => exact .next _

/-- Every step from the invariant completes. -/
theorem step_completes {s : State} (hinv : BlockInv s) : Completes s (step s) := by
  have hwin : s.win.toNat ≤ s.trk.length := hinv.tracker.length ▸ hinv.config.winHigh
  rcases step_cases s with ⟨hbad, -⟩ | ⟨-, -, h⟩ | ⟨e, rest, hlegal, -, h⟩
  · exact absurd hinv.config.legal (by simp [hbad])
  · rw [h]; exact .next _
  · rw [h]; exact runEvent_completes e (s := { s with agenda := rest }) hlegal hwin

end Sys2Proof.Machine

namespace Sys2Proof.Proofs

open Sys2Proof.Machine

/-- Settles O58: the default build is one of the legal builds, and each part of the invariant holds of empty tables. -/
theorem resetMeetsTheInvariant : Obligations.ResetMeetsTheInvariant :=
  ⟨resetOf_blockInv (by decide), fun _ => resetOf_blockInv⟩

/-- Settles O60: a step from the invariant completes, or is refused for an unwritten byte of packet RAM. -/
theorem everyStepCompletes : Obligations.EveryStepCompletes := by
  intro s hinv
  rcases step_completes hinv with ⟨t, h⟩ | ⟨h, hunwritten⟩
  · exact ⟨fun f hf => by simp [h] at hf, fun r hr => by simp [h] at hr, fun _ => ⟨t, h⟩⟩
  · exact ⟨fun f hf => by simp [h] at hf, fun r hr => by simpa [h, eq_comm] using hr, fun hw => absurd hw hunwritten⟩

end Sys2Proof.Proofs
end

section
/-! SUPPORT. What the block can do, said once: the effect of each command (rules R90 to R129), and what a step answers. -/

namespace Sys2Proof.Machine

/-! ## What a result ensures -/

/-- The next state, if the result answers one, meets P. -/
def Ensures (P : State → Prop) (r : Result) : Prop := ∀ t, r = .next t → P t

namespace Ensures

variable {P : State → Prop}

theorem next {t : State} (h : P t) : Ensures P (.next t) := by
  rintro _ ⟨⟩
  exact h

theorem finish {c : Code} {t : State} (h : P (t.complete c)) : Ensures P (finish c t) := next h

theorem ite {c : Prop} [Decidable c] {x y : Result} (hx : c → Ensures P x) (hy : ¬ c → Ensures P y) :
    Ensures P (if c then x else y) := by
  split
  · exact hx ‹_›
  · exact hy ‹_›

/-- The range check of a command: what follows may assume that the range lies in packet RAM. -/
theorem checkRange {s : State} {a n : Nat} {x y : Result} (hx : a + n ≤ s.params.pramBytes → Ensures P x)
    (hy : Ensures P y) : Ensures P (if s.inRange a n then x else y) :=
  ite (fun h => hx ((inRange_iff s a n).mp h)) fun _ => hy

theorem memRead {s : State} {a n : Nat} {k : List Byte → Result}
    (hk : ∀ d, s.pram.readBytes a n = some d → Ensures P (k d)) : Ensures P (s.memRead a n k) := by
  intro t h
  obtain ⟨d, hd, h⟩ := memRead_next h
  exact hk d hd t h

end Ensures

/-! ## What a command does -/

/-- What command i does to the block beside writing RES0..RES2, STATUS.CODE and CMD_ERR, with the checks of its rule that allow it.
A command whose checks fail, and every command that only reports, refrains. -/
inductive Effect : Instr → State → State → Prop
  | refrain {i : Instr} {s : State} : Effect i s s
  | encode {s : State} {seq c : Word} (hin : s.baseArg + (8 + s.lenArg) ≤ s.params.pramBytes) :
      Effect .ckEnc s (s.writeHeader s.baseArg seq c)
  | send {s : State} {i : Nat} {p : List Byte} (hopen : s.trkState = .txOpen)
      (hin : s.baseArg + (8 + s.lenArg) ≤ s.params.pramBytes) (hseq : s.nextSeq ≠ 0xFFFFFFFF) (hroom : s.txCount < s.win.toNat)
      (hread : s.pram.readBytes (s.baseArg + 8) s.lenArg = some p) (hfree : freeEntry s.trk = some i) :
      Effect .txSend s (s.sendPacket i p)
  | acknowledge {s : State} {i : Nat} {seq : Word} (hfind : s.trk.findIdx? (·.holds seq) = some i) :
      Effect .txAck s (s.retire i)
  | tick {s : State} : Effect .txTick s s.tickStep
  | takeRequest {s : State} {i : Nat} {seq : Word} (hfind : s.trk.findIdx? (fun e => e.requested && e.seq == seq) = some i) :
      Effect .txRetx s { s with trk := s.trk.set i { s.trk.getD i Entry.empty with rq := false } }
  | resetSender {s : State} : Effect .txRst s s.resetTrk
  | dropFraming {s : State} : Effect .rxPut s { s with cntFraming := s.cntFraming + 1 }
  | dropCsum {s : State} : Effect .rxPut s { s with cntCsum := s.cntCsum + 1 }
  | dropAhead {s : State} {d : List Byte} (hread : s.pram.readBytes s.baseArg s.lenArg = some d)
      (hvalid : (parsePacket d).isValid = true) (hahead : s.heard.ahead (parsePacket d).seq = true) :
      Effect .rxPut s { s.heard with cntRange := s.cntRange + 1 }
  | accept {s : State} {d : List Byte} (hroom : s.ackq.length ≠ s.params.ackqDepth)
      (hread : s.pram.readBytes s.baseArg s.lenArg = some d) (hlen : s.lenArg - 8 ≤ s.mss.toNat)
      (hvalid : (parsePacket d).isValid = true) (hahead : s.heard.ahead (parsePacket d).seq = false) :
      Effect .rxPut s ((s.heard.pushAck (parsePacket d).seq).store (parsePacket d).seq (parsePacket d).payload).drain.1
  | pop {s : State} {b : Byte} {rest : List Byte} (hdlv : s.dlv = b :: rest) : Effect .rxPop s { s with dlv := rest }.drain.1
  | emitAck {s : State} {seq : Word} {rest : List Word} (hin : s.baseArg + 4 ≤ s.params.pramBytes)
      (hackq : s.ackq = seq :: rest) :
      Effect .rxAckq s ({ s with ackq := rest }.memWrite s.baseArg (bytesBE32 seq))
  | resetReceiver {s : State} : Effect .rxRst s s.resetRab
  | resetAll {s : State} : Effect .srst s s.resetBlock

/-- The states command i can end in from s: what its effect leaves, with the result registers written before it and after it, and
finished with a code. -/
inductive Runs (i : Instr) (s : State) : State → Prop
  | mk {q0 q1 q2 r0 r1 r2 : Word} {c : Code} {u : State} (heff : Effect i (s.setRes q0 q1 q2) u) :
      Runs i s ((u.setRes r0 r1 r2).complete c)

namespace Runs

variable {i : Instr} {s : State}

/-- A finish after an effect: the state finished differs from the effect's in the result registers at most. -/
theorem finish {q0 q1 q2 : Word} {u t : State} {c : Code} (heff : Effect i (s.setRes q0 q1 q2) u)
    (ht : t = u.setRes t.res0 t.res1 t.res2 := by rfl) : Ensures (Runs i s) (finish c t) :=
  .finish (by rw [ht]; exact .mk heff)

/-- A finish with no effect. -/
theorem refrain {r0 r1 r2 : Word} {c : Code} : Ensures (Runs i s) (Machine.finish c (s.setRes r0 r1 r2)) :=
  finish (q0 := r0) (q1 := r1) (q2 := r2) .refrain

end Runs

theorem execCkCrc_runs (s : State) : Ensures (Runs .ckCrc s) (execCkCrc s) :=
  .checkRange (fun _ => .memRead fun _ _ => Runs.refrain) Runs.refrain

theorem execCkEnc_runs (s : State) : Ensures (Runs .ckEnc s) (execCkEnc s) :=
  .ite (fun _ => Runs.refrain) fun _ =>
    .checkRange (fun hin => .memRead fun _ _ => Runs.finish (.encode hin)) Runs.refrain

theorem execCkDec_runs (s : State) : Ensures (Runs .ckDec s) (execCkDec s) :=
  .checkRange (fun _ => .ite (fun _ => Runs.refrain) fun _ => .memRead fun _ _ => Runs.refrain) Runs.refrain

theorem execCkVfy_runs (s : State) : Ensures (Runs .ckVfy s) (execCkVfy s) :=
  .checkRange
    (fun _ => .ite (fun _ => Runs.refrain) fun _ =>
      .memRead fun _ _ => .ite (fun _ => Runs.refrain) fun _ => Runs.refrain)
    Runs.refrain

theorem execTxSend_runs (s : State) : Ensures (Runs .txSend s) (execTxSend s) := by
  simp only [execTxSend]
  cases hstate : s.prologue.trkState with
  | txFailed => exact Runs.refrain
  | txClosing => exact Runs.refrain
  | txDone => exact Runs.refrain
  | txOpen =>
    refine .ite (fun _ => Runs.refrain) fun _ => .checkRange (fun hin => ?_) Runs.refrain
    refine .ite (fun _ => Runs.refrain) fun hseq => .ite (fun _ => Runs.refrain) fun hroom => .memRead fun p hread => ?_
    cases hfree : freeEntry s.prologue.trk with
    | none => nofun
    | some i => exact Runs.finish (.send hstate hin hseq (not_le.mp hroom) hread hfree)

theorem execTxAck_runs (s : State) : Ensures (Runs .txAck s) (execTxAck s) := by
  refine .checkRange (fun _ => .ite (fun _ => .memRead fun d _ => ?_) fun _ => Runs.refrain) Runs.refrain
  simp only
  cases hfind : s.prologue.trk.findIdx? (·.holds (wordBE32 d)) with
  | some i => exact Runs.finish (.acknowledge hfind)
  | none => exact Runs.refrain

theorem execTxRetx_runs (s : State) : Ensures (Runs .txRetx s) (execTxRetx s) := by
  simp only [execTxRetx]
  split
  · exact Runs.refrain
  · split
    · exact Runs.refrain
    · exact Runs.finish (.takeRequest ‹_›)

theorem execTxQry_runs (s : State) : Ensures (Runs .txQry s) (execTxQry s) := by
  simp only [execTxQry]
  cases s.prologue.trk.find? (·.holds s.prologue.seqArg) with
  | none => exact Runs.refrain
  | some e => exact Runs.refrain

theorem acceptDatagram_runs {s : State} {d : List Byte} {r1 : Word} (hroom : s.ackq.length ≠ s.params.ackqDepth)
    (hread : s.pram.readBytes s.baseArg s.lenArg = some d) (hlen : s.lenArg - 8 ≤ s.mss.toNat)
    (hvalid : (parsePacket d).isValid = true) :
    Ensures (Runs .rxPut s)
      ((s.setRes (parsePacket d).seq r1 0).acceptDatagram (parsePacket d).seq (parsePacket d).payload) :=
  .ite (fun hahead => Runs.finish (.dropAhead hread hvalid hahead)) fun hahead =>
    Runs.finish (q0 := (parsePacket d).seq) (q1 := r1) (q2 := 0)
      (.accept hroom hread hlen hvalid (Bool.eq_false_iff.mpr hahead))

theorem execRxPut_runs (s : State) : Ensures (Runs .rxPut s) (execRxPut s) :=
  .checkRange
    (fun _ => .ite (fun _ => Runs.refrain) fun hroom => .ite (fun _ => Runs.finish .dropFraming) fun _ =>
      .memRead fun _ hread => .ite (fun _ => Runs.finish .dropFraming) fun hlen =>
        .ite (fun hvalid => acceptDatagram_runs (s := s) hroom hread (not_lt.mp hlen) hvalid) fun _ => Runs.finish .dropCsum)
    Runs.refrain

theorem execRxPop_runs (s : State) : Ensures (Runs .rxPop s) (execRxPop s) := by
  simp only [execRxPop]
  cases hdlv : s.prologue.dlv with
  | nil => exact Runs.refrain
  | cons b rest => exact Runs.finish (.pop hdlv)

theorem execRxAckq_runs (s : State) : Ensures (Runs .rxAckq s) (execRxAckq s) := by
  refine .checkRange (fun hin => ?_) Runs.refrain
  cases hackq : s.prologue.ackq with
  | nil => exact Runs.refrain
  | cons seq rest => exact Runs.finish (.emitAck hin hackq)

theorem execRxQry_runs (s : State) : Ensures (Runs .rxQry s) (execRxQry s) :=
  .ite (fun _ => Runs.refrain) fun _ => Runs.refrain

/-- Everything a command can do. -/
theorem exec_runs (i : Instr) (s : State) : Ensures (Runs i s) (exec i s) :=
  match i with
  | .ckCrc => execCkCrc_runs s
  | .ckEnc => execCkEnc_runs s
  | .ckDec => execCkDec_runs s
  | .ckVfy => execCkVfy_runs s
  | .txSend => execTxSend_runs s
  | .txAck => execTxAck_runs s
  | .txTick => Runs.finish .tick
  | .txRetx => execTxRetx_runs s
  | .txQry => execTxQry_runs s
  | .txRst => Runs.finish .resetSender
  | .rxPut => execRxPut_runs s
  | .rxPop => execRxPop_runs s
  | .rxAckq => execRxAckq_runs s
  | .rxQry => execRxQry_runs s
  | .rxRst => Runs.finish .resetReceiver
  | .nop => Runs.refrain
  | .srst => Runs.finish .resetAll

end Sys2Proof.Machine
end

section
/-! SUPPORT. Everything a step can answer (rules R13, R55, R101, R149, R151). -/

namespace Sys2Proof.Machine

/-- What the layout calls a register stands at that register's offset (rule R29). -/
theorem offset_of_regionOf {p : Params} {a : Nat} {g : Reg} (h : regionOf p a = .register g) : g.offset = a := by
  unfold regionOf at h
  split at h
  · split at h
    · cases h
      exact offset_of_at? ‹_›
    · nomatch h
  · split at h <;> nomatch h

/-- A transaction that reaches a register is a 4-byte one at the register's offset (rules R29, R55). -/
theorem word_of_register {p : Params} {r : BusReq} {g : Reg} (herr : r.isError = false)
    (hg : regionOf p r.addr.toNat = .register g) : r.size = .word ∧ r.addr = BitVec.ofNat 17 g.offset := by
  have hoff := offset_of_regionOf hg
  have hlow : r.addr.toNat < 0x1000 := by have := offset_lt g; omega
  refine ⟨?_, by rw [hoff, BitVec.ofNat_toNat, BitVec.setWidth_eq]⟩
  by_contra hne
  simp [BusReq.isError, hlow, hne] at herr

/-- A 4-byte write to CMD is what executes a word (rule R23). -/
theorem nextCmdWord_wrReg {s : State} {w : Word} {rest : List Event} (ha : s.agenda = wrReg .cmd w :: rest) :
    s.nextCmdWord = some w := by
  simp [State.nextCmdWord, ha, wrReg, Reg.offset]

/-- What a step from s answers, once the next event is taken from the agenda: nothing happened, a transaction was answered and
perhaps stored its data, a command ran, the tick, or rst_n. -/
inductive StepTo (s : State) : State → Prop
  | idle (ha : s.agenda = []) : StepTo s s
  | answer {rest : List Event} {r : BusReq} (ha : s.agenda = .host r :: rest) (error : Bool) (v : Word) :
      StepTo s ({ s with agenda := rest }.respond error v)
  | register {rest : List Event} {g : Reg} {v : Word} (ha : s.agenda = wrReg g v :: rest) (hg : g ≠ .cmd) :
      StepTo s (({ s with agenda := rest }.respond false 0).writeReg g v)
  | pram {rest : List Event} {r : BusReq} {o : Nat} {bs : List Byte} (ha : s.agenda = .host r :: rest)
      (hin : o + bs.length ≤ s.params.pramBytes) : StepTo s (({ s with agenda := rest }.respond false 0).memWrite o bs)
  | command {rest : List Event} {w : Word} {t : State} (ha : s.agenda = wrReg .cmd w :: rest)
      (hexec : execWord w ({ s with agenda := rest }.respond false 0) = .next t) : StepTo s t
  | tick {rest : List Event} (ha : s.agenda = .tick :: rest) : StepTo s { s with agenda := rest }.tickStep
  | powerOn {rest : List Event} (ha : s.agenda = .powerOn :: rest) : StepTo s { s with agenda := rest }.powerOnReset

theorem hostStep_stepTo {s : State} {r : BusReq} {rest : List Event} (hlegal : s.params.legal = true)
    (ha : s.agenda = .host r :: rest) : Ensures (StepTo s) (hostStep r { s with agenda := rest }) := by
  have hwrite : ∀ {g}, r.isError = false → r.dir = .write → regionOf s.params r.addr.toNat = .register g →
      s.agenda = wrReg g r.wdata :: rest := by
    intro g herr hdir hg
    obtain ⟨hsize, haddr⟩ := word_of_register herr hg
    rw [ha, wrReg, ← hdir, ← hsize, ← haddr]
  rcases hostStep_cases r { s with agenda := rest } with ⟨-, h⟩ | ⟨-, -, hread⟩ | ⟨herr, hdir, hstore⟩
  · rw [h]; exact .next (.answer ha _ _)
  · rcases hread with ⟨g, -, h⟩ | ⟨o, -, h⟩ | ⟨-, h⟩ <;> rw [h]
    · exact .next (.answer ha _ _)
    · exact .memRead fun _ _ => .next (.answer ha _ _)
    · exact .next (.answer ha _ _)
  · rcases hstore with ⟨hcmd, h⟩ | ⟨g, hne, hg, h⟩ | ⟨o, ho, h⟩ | ⟨-, h⟩ <;> rw [h]
    · exact fun t ht => .command (hwrite herr hdir hcmd) ht
    · exact .next (.register (hwrite herr hdir hg) hne)
    · exact .next (.pram ha (by simpa using pram_access_fits hlegal herr ho))
    · exact .next (.answer ha _ _)

/-- Everything a step can answer. -/
theorem step_stepTo {s t : State} (h : step s = .next t) : StepTo s t := by
  rcases step_cases s with ⟨-, hs⟩ | ⟨-, ha, hs⟩ | ⟨e, rest, hlegal, ha, hs⟩ <;> rw [hs] at h
  · nomatch h
  · cases h; exact .idle ha
  · cases e with
    | host r => exact hostStep_stepTo hlegal ha t h
    | tick => cases h; exact .tick ha
    | powerOn => cases h; exact .powerOn ha

/-- Everything a CMD write can do: the effect of a command, or ILLEGAL_CMD alone (rules R77, R78). -/
theorem execWord_next {w : Word} {s t : State} (h : execWord w s = .next t) :
    (∃ i, decode w = .command i ∧ Runs i s t) ∨ t = s.hostError .illegalCmd := by
  rcases execWord_cases w s with ⟨i, hdec, hex⟩ | ⟨_, -, hex⟩ <;> rw [hex] at h
  · exact .inl ⟨i, hdec, exec_runs i s t h⟩
  · cases h; exact .inr rfl

end Sys2Proof.Machine
end

section
/-! SUPPORT. What a command leaves alone of the registers a host writes (rules R21, R78, R129). -/

namespace Sys2Proof.Machine

/-- What only the host, SRST and rst_n write: the build, the operands, the configuration, IRQ_ENABLE and the ports. -/
structure Setup where
  params : Params
  arg0 : Word
  arg1 : Word
  arg2 : Word
  win : BitVec 8
  timeout : BitVec 16
  retry : BitVec 16
  mss : BitVec 16
  sentLen : BitVec 4
  sent0 : Word
  sent1 : Word
  irqEnable : BitVec 8
  agenda : List Event
  resp : Option BusResp

/-- What the host writes, as it stands in a state. -/
def State.setup (s : State) : Setup :=
  ⟨s.params, s.arg0, s.arg1, s.arg2, s.win, s.timeout, s.retry, s.mss, s.sentLen, s.sent0, s.sent1, s.irqEnable, s.agenda, s.resp⟩

/-- The delivery loop writes nothing the host does. -/
@[simp] theorem drain_setup (s : State) : s.drain.1.setup = s.setup := by rw [drain_frame]; rfl

@[simp] theorem tickStep_setup (s : State) : s.tickStep.setup = s.setup := by rw [tickStep_frame]; rfl

@[simp] theorem retire_setup (s : State) (i : Nat) : (s.retire i).setup = s.setup := by rw [retire_frame]; rfl

@[simp] theorem store_setup (s : State) (seq : Word) (p : List Byte) : (s.store seq p).setup = s.setup := by
  unfold State.store
  split <;> rfl

/-- No command but SRST writes what the host writes. -/
theorem Effect.setup {i : Instr} {s u : State} (h : Effect i s u) (hi : i ≠ .srst) : u.setup = s.setup := by
  cases h with
  | refrain => rfl
  | encode => rfl
  | send => rfl
  | acknowledge => exact retire_setup s _
  | tick => exact tickStep_setup s
  | takeRequest => rfl
  | resetSender => rfl
  | dropFraming => rfl
  | dropCsum => rfl
  | dropAhead => rfl
  | accept => rw [drain_setup, store_setup]; rfl
  | pop => rw [drain_setup]; rfl
  | emitAck => rfl
  | resetReceiver => rfl
  | resetAll => exact absurd rfl hi

theorem Runs.setup {i : Instr} {s t : State} (h : Runs i s t) (hi : i ≠ .srst) : t.setup = s.setup := by
  cases h with
  | mk heff => exact heff.setup hi

theorem Runs.params {i : Instr} {s t : State} (h : Runs i s t) : t.params = s.params := by
  by_cases hi : i = .srst
  · subst hi
    cases h with
    | mk heff => cases heff <;> rfl
  · exact congrArg Setup.params (h.setup hi)

/-- No step changes the build (assumption 1). -/
theorem StepTo.params {s t : State} (h : StepTo s t) : t.params = s.params := by
  cases h with
  | idle => rfl
  | answer => rfl
  | register => rw [writeReg_frame]; rfl
  | pram => rfl
  | command _ hexec =>
    rcases execWord_next hexec with ⟨_, -, hrun⟩ | rfl
    · exact hrun.params
    · rfl
  | tick => rw [tickStep_frame]
  | powerOn => rfl

/-- A step that changes STATUS.CODE or a result register is a CMD write or rst_n (rules R25, R79). -/
theorem StepTo.results {s t : State} (h : StepTo s t) :
    (t.code = s.code ∧ t.res0 = s.res0 ∧ t.res1 = s.res1 ∧ t.res2 = s.res2) ∨
      (∃ w, s.nextCmdWord = some w) ∨ s.powersOn := by
  cases h with
  | idle => exact .inl ⟨rfl, rfl, rfl, rfl⟩
  | answer => exact .inl ⟨rfl, rfl, rfl, rfl⟩
  | register => rw [writeReg_frame]; exact .inl ⟨rfl, rfl, rfl, rfl⟩
  | pram => exact .inl ⟨rfl, rfl, rfl, rfl⟩
  | command ha => exact .inr (.inl ⟨_, nextCmdWord_wrReg ha⟩)
  | tick => rw [tickStep_frame]; exact .inl ⟨rfl, rfl, rfl, rfl⟩
  | powerOn ha => exact .inr (.inr (by simp [State.powersOn, ha]))

end Sys2Proof.Machine

namespace Sys2Proof.Proofs

open Sys2Proof.Machine

/-- Settles O19: a command's effect keeps what the host writes, and each kind of step keeps the build. -/
theorem commandsKeepOperandsAndConfiguration : Obligations.CommandsKeepOperandsAndConfiguration := by
  refine ⟨fun i s t hi h => ?_, fun s t h => (step_stepTo h).params⟩
  have hkeep := (exec_runs i s t h).setup hi
  simp only [State.setup, Setup.mk.injEq] at hkeep
  exact hkeep.2

/-- Settles O18: neither a transaction other than a CMD write nor a tick writes STATUS.CODE or a result register. -/
theorem onlyCommandsWriteCodeAndResults : Obligations.OnlyCommandsWriteCodeAndResults := by
  intro s t h hchange
  rcases (step_stepTo h).results with ⟨hcode, h0, h1, h2⟩ | hcmd
  · simp [hcode, h0, h1, h2] at hchange
  · exact hcmd

end Sys2Proof.Proofs
end

section
/-! SUPPORT. The configuration, the storage and the tracker part of the invariant: what each effect keeps. -/

namespace Sys2Proof.Machine

/-! ## Configuration -/

/-- The configuration part of the invariant speaks only of what the host writes. -/
theorem ConfigInv.congr {s t : State} (h : ConfigInv s) (heq : t.setup = s.setup) : ConfigInv t := by
  simp only [State.setup, Setup.mk.injEq] at heq
  obtain ⟨hp, -, -, -, hwin, htime, -, hmss, hlen, -⟩ := heq
  exact {
    legal := hp ▸ h.legal
    winLow := hwin ▸ h.winLow
    winHigh := hp ▸ hwin ▸ h.winHigh
    timeout := htime ▸ h.timeout
    mssLow := hmss ▸ h.mssLow
    mssHigh := hp ▸ hmss ▸ h.mssHigh
    sentLen := hlen ▸ h.sentLen }

theorem Effect.configInv {i : Instr} {s u : State} (h : Effect i s u) (hs : ConfigInv s) : ConfigInv u := by
  by_cases hi : i = .srst
  · subst hi
    cases h with
    | refrain => exact hs
    | resetAll => exact { resetOf_configInv hs.legal with }
  · exact hs.congr (h.setup hi)

/-! What the WARL writes store lies in the legal range (rules R31, R32, R34, R35). -/

theorem toNat_legalWin {p : Params} (hlegal : p.legal = true) (v : Word) :
    (legalWin p v).toNat = min (max (v.toNat % 2 ^ 8) 1) p.txSlots := by
  obtain ⟨⟨-, htx⟩, -⟩ := p.legal_iff.mp hlegal
  simp only [legalWin, BitVec.extractLsb'_toNat, Nat.shiftRight_zero, BitVec.toNat_ofNat]
  exact Nat.mod_eq_of_lt (by omega)

theorem toNat_legalTimeout (v : Word) : (legalTimeout v).toNat = max (v.toNat % 2 ^ 16) 1 := by
  simp only [legalTimeout, BitVec.extractLsb'_toNat, Nat.shiftRight_zero, BitVec.toNat_ofNat]
  exact Nat.mod_eq_of_lt (by omega)

theorem toNat_legalMss {p : Params} (hlegal : p.legal = true) (v : Word) :
    (legalMss p v).toNat = min (max (v.toNat % 2 ^ 16) 1) p.mssMax := by
  obtain ⟨-, -, -, ⟨-, hmss⟩, -⟩ := p.legal_iff.mp hlegal
  simp only [legalMss, BitVec.extractLsb'_toNat, Nat.shiftRight_zero, BitVec.toNat_ofNat]
  exact Nat.mod_eq_of_lt (by omega)

theorem toNat_legalSentLen (v : Word) : (legalSentLen v).toNat = min (v.toNat % 2 ^ 4) 8 := by
  simp only [legalSentLen, BitVec.extractLsb'_toNat, Nat.shiftRight_zero, BitVec.toNat_ofNat]
  exact Nat.mod_eq_of_lt (by omega)

/-- A host write to a register leaves a legal configuration. -/
theorem ConfigInv.writeReg {s : State} {g : Reg} {v : Word} (h : ConfigInv s) : ConfigInv (s.writeReg g v) := by
  obtain ⟨⟨htx, -⟩, -, -, ⟨hmss, -⟩, -⟩ := s.params.legal_iff.mp h.legal
  cases g with
  | win =>
    have hwin : (legalWin s.params v).toNat = _ := toNat_legalWin h.legal v
    exact { h with winLow := hwin ▸ le_min (Nat.le_max_right _ _) htx, winHigh := hwin ▸ Nat.min_le_right _ _ }
  | timeout => exact { h with timeout := toNat_legalTimeout v ▸ Nat.le_max_right _ _ }
  | mss =>
    have hmax : (legalMss s.params v).toNat = _ := toNat_legalMss h.legal v
    exact { h with mssLow := hmax ▸ le_min (Nat.le_max_right _ _) hmss, mssHigh := hmax ▸ Nat.min_le_right _ _ }
  | sentLen => exact { h with sentLen := (toNat_legalSentLen v).trans_le (Nat.min_le_right _ _) }
  | _ => exact { h with }

/-! ## Storage -/

/-- A byte string written inside packet RAM keeps it canonical and inside its bounds. -/
theorem StorageInv.memWrite {s : State} {a : Nat} {bs : List Byte} (h : StorageInv s) (hin : a + bs.length ≤ s.params.pramBytes) :
    StorageInv (s.memWrite a bs) :=
  { h with
    canonical := Memory.wf_writeBytes _ _ _ h.canonical
    inside := Memory.mem_writeBytes_lt h.inside hin }

theorem StorageInv.writeHeader {s : State} {seq c : Word} (h : StorageInv s)
    (hin : s.baseArg + (8 + s.lenArg) ≤ s.params.pramBytes) : StorageInv (s.writeHeader s.baseArg seq c) := by
  rw [writeHeader_eq]
  exact h.memWrite (by simp; omega)

/-- A turn of the delivery loop appends to DLV only what fits (rule R113). -/
theorem StorageInv.drainOne {s t : State} (h : StorageInv s) (hd : s.drainOne = some t) : StorageInv t := by
  obtain ⟨-, -, -, ⟨-, rfl⟩ | ⟨-, hfits, rfl⟩⟩ := drainOne_some hd
  · exact { h with }
  · refine { h with dlvFits := ?_ }
    have hpay : (s.slot (s.slotIndex s.expSeq)).payload.length ≤ (s.slot (s.slotIndex s.expSeq)).len.toNat :=
      List.length_take_le _ _
    simp only [List.length_append, State.consume_params]
    omega

theorem StorageInv.drain {s : State} (h : StorageInv s) : StorageInv s.drain.1 :=
  drain_induct (fun _ _ ha hb => ha.drainOne hb) s h

theorem StorageInv.store {s : State} {seq : Word} {p : List Byte} (h : StorageInv s) : StorageInv (s.store seq p) := by
  unfold State.store
  split <;> exact { h with }

theorem Effect.storageInv {i : Instr} {s u : State} (h : Effect i s u) (hs : StorageInv s) : StorageInv u := by
  cases h with
  | refrain => exact hs
  | encode hin => exact hs.writeHeader hin
  | send _ hin => exact { hs.writeHeader hin with }
  | acknowledge => rw [retire_frame]; exact { hs with }
  | tick => rw [tickStep_frame]; exact { hs with }
  | takeRequest => exact { hs with }
  | resetSender => exact { hs with }
  | dropFraming => exact { hs with }
  | dropCsum => exact { hs with }
  | dropAhead => exact { hs with }
  | @accept _ d hroom =>
    have hpush : StorageInv (s.heard.pushAck (parsePacket d).seq) :=
      { hs with
        ackqFits := by
          have := hs.ackqFits
          simp only [State.pushAck_ackq, State.heard_ackq, List.length_append, List.length_singleton, State.pushAck_params,
            State.heard_params]
          omega }
    exact hpush.store.drain
  | @pop _ b rest hdlv =>
    have hrest : StorageInv { s with dlv := rest } :=
      { hs with dlvFits := (Nat.le_succ _).trans (by simpa [hdlv] using hs.dlvFits) }
    exact hrest.drain
  | @emitAck _ seq rest hin hackq =>
    have hrest : StorageInv { s with ackq := rest } :=
      { hs with ackqFits := (Nat.le_succ _).trans (by simpa [hackq] using hs.ackqFits) }
    exact hrest.memWrite (bs := bytesBE32 seq) hin
  | resetReceiver => exact { hs with dlvFits := Nat.zero_le _, ackqFits := Nat.zero_le _ }
  | resetAll => exact { hs with dlvFits := Nat.zero_le _, ackqFits := Nat.zero_le _ }

/-! ## Tracker -/

/-- No entry holds a packet exactly when TX_COUNT is 0 (rule R26). -/
theorem txCount_eq_zero {s : State} : s.txCount = 0 ↔ ∀ e ∈ s.trk, e.valid = false := by
  simp [State.txCount, List.countP_eq_zero]

theorem forall_mem_set {α : Type} {l : List α} {i : Nat} {x : α} {P : α → Prop} (hl : ∀ e ∈ l, P e) (hx : P x) :
    ∀ e ∈ l.set i x, P e := by
  intro e he
  rcases List.mem_or_eq_of_mem_set he with he | rfl
  · exact hl e he
  · exact hx

/-- Two entries do not hold packets of one sequence number (rule R42). -/
def Entry.Apart (a b : Entry) : Prop := a.valid = true → b.valid = true → a.seq ≠ b.seq

/-- Storing an entry that stands apart from all of the table keeps the table's entries apart. -/
theorem pairwise_apart_set {l : List Entry} {i : Nat} {x : Entry} (h : l.Pairwise Entry.Apart) (hx : ∀ a ∈ l, a.Apart x) :
    (l.set i x).Pairwise Entry.Apart := by
  induction l generalizing i with
  | nil => exact h
  | cons b rest ih =>
    obtain ⟨hb, hrest⟩ := List.pairwise_cons.mp h
    have hxrest : ∀ a ∈ rest, a.Apart x := fun a ha => hx a (List.mem_cons_of_mem b ha)
    cases i with
    | zero => exact List.pairwise_cons.mpr ⟨fun a ha hvx hva => (hxrest a ha hva hvx).symm, hrest⟩
    | succ i =>
      refine List.pairwise_cons.mpr ⟨fun a ha => ?_, ih hrest hxrest⟩
      rcases List.mem_or_eq_of_mem_set ha with ha | rfl
      · exact hb a ha
      · exact hx b List.mem_cons_self

/-- A table of empty entries in OPEN meets the tracker's invariants. -/
theorem TrackerInv.of_empty {s : State} (hlength : s.trk.length = s.params.txSlots) (hempty : ∀ e ∈ s.trk, e = Entry.empty)
    (hstate : s.trkState = .txOpen) : TrackerInv s := by
  have hinv : ∀ e ∈ s.trk, e.valid ≠ true := fun e he => by rw [hempty e he]; nofun
  exact {
    length := hlength
    seqUnique := List.pairwise_of_forall_mem_list fun a ha _ _ hva => absurd hva (hinv a ha)
    seqBelow := fun e he hv => absurd hv (hinv e he)
    oneSentinel := (List.countP_eq_zero.mpr fun e he => by simp [hinv e he]).trans_le (Nat.zero_le 1)
    invalidEmpty := fun e he _ => hempty e he
    inPram := fun e he hv => absurd hv (hinv e he)
    doneEmpty := by simp [hstate]
    openNoEnd := fun _ e he hv => absurd hv (hinv e he)
    closingHeld := by simp [hstate] }

/-- What names a pending packet: an entry without its timer, its count of retransmissions and its request. -/
def Entry.identity (e : Entry) : Entry := { e with age := 0, retries := 0, rq := false }

/-- The tracker's invariants speak only of the entries' identities: they are kept where these are, even on entering FAILED. -/
theorem TrackerInv.of_identity {s t : State} (h : TrackerInv s) (hid : t.trk.map Entry.identity = s.trk.map Entry.identity)
    (hempty : ∀ e ∈ t.trk, e.valid = false → e = Entry.empty) (hparams : t.params = s.params) (hnext : t.nextSeq = s.nextSeq)
    (hstate : t.trkState = s.trkState ∨ t.trkState = .txFailed) : TrackerInv t := by
  have hmem : ∀ {P : Entry → Prop}, (∀ e ∈ s.trk, P e.identity) → ∀ e ∈ t.trk, P e.identity := by
    intro P hs
    rw [← List.forall_mem_map, hid]
    exact List.forall_mem_map.mpr hs
  have hcount : ∀ p : Entry → Bool, t.trk.countP (fun e => p e.identity) = s.trk.countP (fun e => p e.identity) := by
    intro p
    have := congrArg (List.countP p) hid
    rwa [List.countP_map, List.countP_map] at this
  have htx : t.txCount = s.txCount := hcount (·.valid)
  exact {
    length := by have := congrArg List.length hid; simp only [List.length_map] at this; rw [this, hparams, h.length]
    seqUnique := by
      have hs : (s.trk.map Entry.identity).Pairwise Entry.Apart := List.pairwise_map.mpr h.seqUnique
      rw [← hid] at hs
      exact List.pairwise_map.mp hs
    seqBelow := hnext ▸ hmem (P := fun e => e.valid = true → e.seq.toNat < s.nextSeq.toNat) h.seqBelow
    oneSentinel := (hcount fun e => e.valid && e.sent).trans_le h.oneSentinel
    invalidEmpty := hempty
    inPram := hparams ▸ hmem (P := fun e => e.valid = true → e.addr.toNat + e.len.toNat ≤ s.params.pramBytes) h.inPram
    doneEmpty := by rcases hstate with hst | hst <;> simp [hst, htx]; exact h.doneEmpty
    openNoEnd := by
      rcases hstate with hst | hst
      · rw [hst]
        exact fun hopen => hmem (P := fun e => e.valid = true → e.sent = false) (h.openNoEnd hopen)
      · simp [hst]
    closingHeld := by rcases hstate with hst | hst <;> simp [hst, htx]; exact h.closingHeld }

theorem TrackerInv.tickStep {s : State} (h : TrackerInv s) : TrackerInv s.tickStep := by
  have htrk : s.tickStep.trk = if s.timersRun then s.trk.map (·.tick s.timeout s.retry) else s.trk := by rw [tickStep_frame]
  have htick : ∀ e : Entry, (e.tick s.timeout s.retry).identity = e.identity := fun e => by simp [Entry.identity]
  refine h.of_identity ?_ ?_ (by rw [tickStep_frame]) (by rw [tickStep_frame]) ?_
  · rw [htrk]
    split
    · simp [htick, Function.comp_def]
    · rfl
  · rw [htrk]
    split
    · simp only [List.forall_mem_map, tick_valid]
      exact fun e he hv => by rw [tick_invalid _ _ hv, h.invalidEmpty e he hv]
    · exact h.invalidEmpty
  · rcases tickStep_cases s with ⟨-, ht⟩ | ⟨_, _, -, ht⟩ <;> rw [ht]
    · exact .inl rfl
    · exact .inr rfl

theorem TrackerInv.takeRequest {s : State} {i : Nat} {seq : Word} (h : TrackerInv s)
    (hfind : s.trk.findIdx? (fun e => e.requested && e.seq == seq) = some i) :
    TrackerInv { s with trk := s.trk.set i { s.trk.getD i Entry.empty with rq := false } } := by
  obtain ⟨hi, hreq, -⟩ := List.findIdx?_eq_some_iff_getElem.mp hfind
  have hget : s.trk.getD i Entry.empty = s.trk[i] := by simp [hi]
  have hvalid : s.trk[i].valid = true := by simp [Entry.requested] at hreq; exact hreq.1.1
  refine h.of_identity ?_ (fun e he hv => ?_) rfl rfl (.inl rfl)
  · have hid : Entry.identity { s.trk[i] with rq := false } = (s.trk.map Entry.identity)[i]'(by simpa using hi) := by
      rw [List.getElem_map]; rfl
    rw [hget, List.map_set, hid, List.set_getElem_self]
  · rcases List.mem_or_eq_of_mem_set he with he | rfl
    · exact h.invalidEmpty e he hv
    · rw [hget, hvalid] at hv; nomatch hv

/-- Retiring an entry enters DONE when it was the last one in CLOSING, and otherwise leaves TRK.state (rule R94). -/
theorem retire_trkState (s : State) (i : Nat) :
    (s.trkState = .txClosing ∧ (s.retire i).txCount = 0 ∧ (s.retire i).trkState = .txDone) ∨
      (¬ (s.trkState = .txClosing ∧ (s.retire i).txCount = 0) ∧ (s.retire i).trkState = s.trkState) := by
  unfold State.retire
  simp only
  split
  · exact .inl ⟨‹_ ∧ _›.1, ‹_ ∧ _›.2, rfl⟩
  · exact .inr ⟨‹_›, rfl⟩

theorem TrackerInv.retire {s : State} {i : Nat} (h : TrackerInv s) (hi : i < s.trk.length) : TrackerInv (s.retire i) := by
  have htrk : (s.retire i).trk = s.trk.set i Entry.empty := by rw [retire_frame]
  have hmem : ∀ e ∈ (s.retire i).trk, e.valid = true → e ∈ s.trk := htrk ▸ forall_mem_set (fun _ he _ => he) nofun
  have hnone : s.txCount = 0 → (s.retire i).txCount = 0 := by
    simp only [txCount_eq_zero]
    intro hall e he
    by_contra hv
    rw [Bool.not_eq_false] at hv
    exact absurd (hall e (hmem e he hv)) (by simp [hv])
  have hstate := retire_trkState s i
  exact {
    length := by rw [htrk, List.length_set, h.length, retire_frame]
    seqUnique := htrk ▸ pairwise_apart_set h.seqUnique fun _ _ _ => nofun
    seqBelow := fun e he hv => by rw [retire_frame]; exact h.seqBelow e (hmem e he hv) hv
    oneSentinel := by
      rw [htrk, List.countP_set hi]
      simp only [Entry.empty, Bool.false_and, Bool.false_eq_true, if_false, Nat.add_zero]
      exact (Nat.sub_le _ _).trans h.oneSentinel
    invalidEmpty := htrk ▸ forall_mem_set h.invalidEmpty fun _ => rfl
    inPram := fun e he hv => by rw [retire_frame]; exact h.inPram e (hmem e he hv) hv
    doneEmpty := by
      rcases hstate with ⟨-, hcount, -⟩ | ⟨-, hst⟩
      · exact fun _ => hcount
      · exact fun hdone => hnone (h.doneEmpty (hst ▸ hdone))
    openNoEnd := by
      rcases hstate with ⟨-, -, hst⟩ | ⟨-, hst⟩
      · simp [hst]
      · exact fun hopen e he hv => h.openNoEnd (hst ▸ hopen) e (hmem e he hv) hv
    closingHeld := by
      rcases hstate with ⟨-, -, hst⟩ | ⟨hnot, hst⟩
      · simp [hst]
      · exact fun hclosing hcount => hnot ⟨hst ▸ hclosing, hcount⟩ }

/-- A packet inside packet RAM is recorded with its offset and its length (rule R97). -/
theorem newEntry_inPram {p : Params} {seq : Word} {base n : Nat} {sent : Bool} (hlegal : p.legal = true)
    (hin : base + (8 + n) ≤ p.pramBytes) :
    (newEntry seq base n sent).addr.toNat + (newEntry seq base n sent).len.toNat ≤ p.pramBytes := by
  obtain ⟨-, -, -, -, ⟨-, hpram, -⟩, -⟩ := p.legal_iff.mp hlegal
  have haddr : base % 65536 = base := Nat.mod_eq_of_lt (by omega)
  have hlen : (8 + n) % 131072 = 8 + n := Nat.mod_eq_of_lt (by omega)
  simpa [newEntry, haddr, hlen] using hin

theorem TrackerInv.sendPacket {s : State} {i : Nat} {p : List Byte} (h : TrackerInv s) (hlegal : s.params.legal = true)
    (hopen : s.trkState = .txOpen) (hin : s.baseArg + (8 + s.lenArg) ≤ s.params.pramBytes) (hseq : s.nextSeq ≠ 0xFFFFFFFF)
    (hi : i < s.trk.length) : TrackerInv (s.sendPacket i p) := by
  let x := newEntry s.nextSeq s.baseArg s.lenArg (s.isSentinel p)
  have hnext : (s.sendPacket i p).nextSeq.toNat = s.nextSeq.toNat + 1 := by
    show (s.nextSeq + 1).toNat = _
    bv_omega
  have hstate : (s.sendPacket i p).trkState = if s.isSentinel p then .txClosing else .txOpen := by rw [← hopen]; rfl
  have hnoEnd := h.openNoEnd hopen
  exact {
    length := List.length_set.trans h.length
    seqUnique := pairwise_apart_set h.seqUnique fun e he hv _ heq => (h.seqBelow e he hv).ne (congrArg BitVec.toNat heq)
    seqBelow := by
      rw [hnext]
      exact forall_mem_set (fun e he hv => Nat.lt_succ_of_lt (h.seqBelow e he hv)) fun _ => Nat.lt_succ_self _
    oneSentinel := by
      have hzero : s.trk.countP (fun e => e.valid && e.sent) = 0 :=
        List.countP_eq_zero.mpr fun e he => by simpa using hnoEnd e he
      show (s.trk.set i x).countP _ ≤ 1
      rw [List.countP_set hi, hzero]
      split <;> split <;> omega
    invalidEmpty := forall_mem_set h.invalidEmpty nofun
    inPram := forall_mem_set h.inPram fun _ => newEntry_inPram hlegal hin
    doneEmpty := by rw [hstate]; split <;> nofun
    openNoEnd := by
      rw [hstate]
      split
      · nofun
      · exact fun _ => forall_mem_set hnoEnd fun _ => Bool.eq_false_iff.mpr ‹_›
    closingHeld := fun _ hcount => nomatch txCount_eq_zero.mp hcount x (List.mem_set hi x) }

theorem Effect.trackerInv {i : Instr} {s u : State} (h : Effect i s u) (hlegal : s.params.legal = true) (hs : TrackerInv s) :
    TrackerInv u := by
  cases h with
  | refrain => exact hs
  | encode => exact { hs with }
  | send hopen hin hseq _ _ hfree => exact hs.sendPacket hlegal hopen hin hseq (freeEntry_eq_some.mp hfree).1
  | acknowledge hfind => exact hs.retire (List.findIdx?_eq_some_iff_getElem.mp hfind).1
  | tick => exact hs.tickStep
  | takeRequest hfind => exact hs.takeRequest hfind
  | resetSender => exact .of_empty ((List.length_map _).trans hs.length) (by simp [State.resetTrk]) rfl
  | dropFraming => exact { hs with }
  | dropCsum => exact { hs with }
  | dropAhead => exact { hs with }
  | accept =>
    rw [drain_frame]
    unfold State.store
    split <;> exact { hs with }
  | pop => rw [drain_frame]; exact { hs with }
  | emitAck => exact { hs with }
  | resetReceiver => exact { hs with }
  | resetAll => exact .of_empty ((List.length_map _).trans hs.length) (by simp [State.resetBlock]) rfl

end Sys2Proof.Machine
end

section
/-! SUPPORT. The receiver part of the invariant (rules R43, R44, R113): what a turn of the delivery loop, an insertion and each
effect keep. -/

namespace Sys2Proof.Machine

/-! ## The delivery loop reaches its end -/

/-- The delivery loop is at its end exactly when the cursor's slot does not hold the next packet, or holds one that DLV has no room
for (rule R113). -/
theorem drainOne_eq_none {s : State} :
    s.drainOne = none ↔
      (s.rabState = .buffering → (s.slot (s.slotIndex s.expSeq)).valid = true → (s.slot (s.slotIndex s.expSeq)).seq = s.expSeq →
        (s.slot (s.slotIndex s.expSeq)).sent = false ∧
          s.params.dlvBytes < s.dlv.length + (s.slot (s.slotIndex s.expSeq)).len.toNat) := by
  rcases drainOne_cases s with ⟨hd, hc⟩ | ⟨hstate, hv, hseq, ⟨hsent, hd⟩ | ⟨hsent, hfull, hd⟩ | ⟨-, hfits, hd⟩⟩
  · exact iff_of_true hd fun hstate hv hseq => absurd ⟨hstate, hv, hseq⟩ hc
  · exact iff_of_false (by simp [hd]) fun h => by simpa [hsent] using (h hstate hv hseq).1
  · exact iff_of_true hd fun _ _ _ => ⟨hsent, hfull⟩
  · exact iff_of_false (by simp [hd]) fun h => (h hstate hv hseq).2.not_ge hfits

theorem slot_eq_getElem {s : State} {j : Nat} (hj : j < s.slots.length) : s.slot j = s.slots[j] := by simp [State.slot, hj]

/-- A valid slot counts in RX_COUNT (rule R26). -/
theorem rxCount_pos {s : State} {j : Nat} (hv : (s.slot j).valid = true) : 0 < s.rxCount :=
  List.countP_pos_iff.mpr ⟨s.slot j, slot_eq_getElem (lt_of_slot_valid hv) ▸ List.getElem_mem _, hv⟩

/-- Every turn empties one slot (rules R26, R113). -/
theorem drainOne_rxCount {s t : State} (h : s.drainOne = some t) : t.rxCount + 1 = s.rxCount := by
  obtain ⟨-, hv, -, hturn⟩ := drainOne_some h
  have hc := lt_of_slot_valid hv
  have hslots : t.slots = s.slots.set (s.slotIndex s.expSeq) (s.slot (s.slotIndex s.expSeq)).clear := by
    rcases hturn with ⟨-, rfl⟩ | ⟨-, -, rfl⟩ <;> rfl
  have hcount : t.rxCount = s.rxCount - 1 := by
    simp [State.rxCount, hslots, List.countP_set hc, ← slot_eq_getElem hc, hv]
  rw [hcount, Nat.sub_add_cancel (rxCount_pos hv)]

theorem drainFrom_drainOne {f : Nat} {s : State} (h : s.rxCount ≤ f) : (s.drainFrom f).1.drainOne = none := by
  induction f generalizing s with
  | zero => exact drainOne_eq_none.mpr fun _ hv _ => absurd h (rxCount_pos hv).not_ge
  | succ f ih =>
    cases hd : s.drainOne with
    | none => rwa [drainFrom_none hd]
    | some t =>
      rw [drainFrom_some hd]
      exact ih (by have := drainOne_rxCount hd; omega)

/-- As many turns as there are slots end the delivery loop (rule R113). -/
theorem drain_drainOne (s : State) : s.drain.1.drainOne = none := drainFrom_drainOne List.countP_le_length

/-! ## The reassembly buffer -/

/-- The invariants of rule R44, which hold within a command too: all of `ReassemblyInv` but that the delivery loop is at its
end. -/
structure BufferInv (s : State) : Prop where
  length   : s.slots.length = s.params.rxSlots
  placed   : ∀ j, j < s.params.rxSlots → (s.slot j).valid = true → SlotPlaced s j
  cleared  : ∀ j, j < s.params.rxSlots → (s.slot j).valid = false →
    (s.slot j).seq = 0 ∧ (s.slot j).len = 0 ∧ (s.slot j).sent = false
  awaiting : s.rabState = .awaiting →
    s.expSeq = 0 ∧ (∀ j, j < s.params.rxSlots → (s.slot j).valid = false) ∧ s.dlv = [] ∧ s.ackq = []

theorem ReassemblyInv.buffer {s : State} (h : ReassemblyInv s) : BufferInv s := { h with }

theorem BufferInv.reassembly {s : State} (h : BufferInv s) (hdrained : s.drainOne = none) : ReassemblyInv s :=
  { h with drained := hdrained }

theorem SlotPlaced.congr {s t : State} {j : Nat} (h : SlotPlaced s j) (hparams : t.params = s.params) (hexp : t.expSeq = s.expSeq)
    (hslot : t.slot j = s.slot j) : SlotPlaced t j where
  place := by rw [hparams, hslot]; exact h.place
  low := by rw [hexp, hslot]; exact h.low
  high := by rw [hparams, hexp, hslot]; exact h.high
  notTop := by rw [hslot]; exact h.notTop
  fits := by rw [hparams, hslot]; exact h.fits
  data := by rw [hslot]; exact h.data

/-- The buffer's invariants speak of the build, the slots and the cursor, and of the FIFOs in AWAITING only. -/
theorem BufferInv.congr {s t : State} (h : BufferInv s)
    (heq : (t.params, t.slots, t.expSeq) = (s.params, s.slots, s.expSeq))
    (hawait : t.rabState = .awaiting → s.rabState = .awaiting ∧ t.dlv = s.dlv ∧ t.ackq = s.ackq) : BufferInv t := by
  simp only [Prod.mk.injEq] at heq
  obtain ⟨hp, hslots, hexp⟩ := heq
  have hslot : t.slot = s.slot := by funext j; simp only [State.slot, hslots]
  exact {
    length := by rw [hp, hslots]; exact h.length
    placed := by
      rw [hp, hslot]
      exact fun j hj hv => (h.placed j hj hv).congr hp hexp (congrFun hslot j)
    cleared := by rw [hp, hslot]; exact h.cleared
    awaiting := by
      intro ht
      obtain ⟨hs, hdlv, hackq⟩ := hawait ht
      rw [hp, hslot, hexp, hdlv, hackq]
      exact h.awaiting hs }

/-- In AWAITING no slot holds a packet. -/
theorem BufferInv.not_awaiting_of_valid {s : State} {j : Nat} (h : BufferInv s) (hv : (s.slot j).valid = true) :
    s.rabState ≠ .awaiting := by
  intro ha
  obtain ⟨-, hnone, -, -⟩ := h.awaiting ha
  rw [hnone j (h.length ▸ lt_of_slot_valid hv)] at hv
  nomatch hv

/-- Consuming the packet at the cursor keeps the buffer's invariants: every other packet lies above the cursor (rule R113). -/
theorem BufferInv.consume {s : State} (h : BufferInv s) (hvalid : (s.slot (s.slotIndex s.expSeq)).valid = true)
    (hseq : (s.slot (s.slotIndex s.expSeq)).seq = s.expSeq) : BufferInv s.consume := by
  have hc : s.slotIndex s.expSeq < s.slots.length := lt_of_slot_valid hvalid
  have hslot : ∀ k, s.consume.slot k = if k = s.slotIndex s.expSeq then (s.slot (s.slotIndex s.expSeq)).clear else s.slot k :=
    fun k => slot_set s _ k _ hc
  have htop : s.expSeq ≠ 0xFFFFFFFF := hseq ▸ (h.placed _ (h.length ▸ hc) hvalid).notTop
  have hexp : s.consume.expSeq.toNat = s.expSeq.toNat + 1 := by
    show (s.expSeq + 1).toNat = _
    bv_omega
  exact {
    length := List.length_set.trans h.length
    placed := by
      intro k hk hv
      have hne : k ≠ s.slotIndex s.expSeq := fun heq => by rw [hslot, if_pos heq] at hv; nomatch hv
      rw [hslot, if_neg hne] at hv
      have hs := h.placed k hk hv
      have habove : (s.slot k).seq.toNat ≠ s.expSeq.toNat := fun heq => hne (by rw [← hs.place, heq]; rfl)
      have hkeep : s.consume.slot k = s.slot k := by rw [hslot, if_neg hne]
      exact {
        place := hkeep ▸ hs.place
        low := by rw [hkeep, hexp]; have := hs.low; omega
        high := by rw [hkeep, hexp]; have := hs.high; simp only [State.consume_params]; omega
        notTop := hkeep ▸ hs.notTop
        fits := hkeep ▸ hs.fits
        data := hkeep ▸ hs.data }
    cleared := by
      intro k hk hv
      rw [hslot] at hv ⊢
      split
      · exact ⟨rfl, rfl, rfl⟩
      · rw [if_neg ‹_›] at hv; exact h.cleared k hk hv
    awaiting := fun ha => absurd ha (h.not_awaiting_of_valid hvalid) }

theorem BufferInv.drainOne {s t : State} (h : BufferInv s) (hd : s.drainOne = some t) : BufferInv t := by
  obtain ⟨hstate, hv, hseq, ⟨-, rfl⟩ | ⟨-, -, rfl⟩⟩ := drainOne_some hd
  · exact (h.consume hv hseq).congr rfl nofun
  · exact (h.consume hv hseq).congr rfl fun ha => by simp [hstate] at ha

theorem BufferInv.drain {s : State} (h : BufferInv s) : ReassemblyInv s.drain.1 :=
  (drain_induct (fun _ _ ha hb => ha.drainOne hb) s h).reassembly (drain_drainOne s)

/-- An insertion puts a packet of the receive range into its own slot (rules R111, R112, R114). -/
theorem BufferInv.store {s : State} {seq : Word} {p : List Byte} (h : BufferInv s) (hlegal : s.params.legal = true)
    (hstate : s.rabState ≠ .awaiting) (hahead : s.ahead seq = false) (hlen : p.length ≤ s.params.mssMax) :
    BufferInv (s.store seq p) := by
  obtain ⟨-, ⟨hrx, -⟩, -, ⟨-, hmss⟩, -, -⟩ := s.params.legal_iff.mp hlegal
  unfold State.store
  split
  case isFalse => exact h.congr rfl fun ha => ⟨ha, rfl, rfl⟩
  case isTrue hins =>
    obtain ⟨hopen, hlate, hfree⟩ := of_decide_eq_true hins
    obtain ⟨htop, hrange⟩ : seq ≠ 0xFFFFFFFF ∧ ¬ (s.rabState ≠ .complete ∧ s.expSeq.toNat + s.params.rxSlots ≤ seq.toNat) := by
      simpa only [State.ahead, decide_eq_false_iff_not, not_or] using hahead
    have hj : s.slotIndex seq < s.params.rxSlots := Nat.mod_lt _ hrx
    have hlen16 : (BitVec.ofNat 16 p.length).toNat = p.length := by
      rw [BitVec.toNat_ofNat]
      exact Nat.mod_eq_of_lt (by omega)
    have hslot := fun k =>
      slot_set s (s.slotIndex seq) k ((s.slot (s.slotIndex seq)).insert seq p (s.isSentinel p)) (h.length ▸ hj)
    exact {
      length := List.length_set.trans h.length
      placed := by
        intro k hk hv
        by_cases hkj : k = s.slotIndex seq
        · subst hkj
          have hnew := (hslot (s.slotIndex seq)).trans (if_pos rfl)
          exact {
            place := by rw [hnew]; rfl
            low := by rw [hnew]; exact not_lt.mp hlate
            high := by rw [hnew]; exact not_le.mp fun hle => hrange ⟨hopen, hle⟩
            notTop := by rw [hnew]; exact htop
            fits := by rw [hnew]; exact hlen16.trans_le hlen
            data := by rw [hnew]; exact hlen16.trans_le (by simp [Slot.insert]) }
        · have hkeep := (hslot k).trans (if_neg hkj)
          exact (h.placed k hk (hkeep ▸ hv)).congr rfl rfl hkeep
      cleared := by
        intro k hk hv
        by_cases hkj : k = s.slotIndex seq
        · rw [hslot, if_pos hkj] at hv; nomatch hv
        · rw [hslot, if_neg hkj] at hv ⊢
          exact h.cleared k hk hv
      awaiting := fun ha => absurd ha hstate }

theorem heard_not_awaiting (s : State) : s.heard.rabState ≠ .awaiting := by
  rw [State.heard_rabState]
  split
  · nofun
  · assumption

/-- The receiver's invariants speak of the build, the slots, the cursor, RAB.state and DLV, and of ACKQ in AWAITING only. -/
theorem ReassemblyInv.congr {s t : State} (h : ReassemblyInv s)
    (heq : (t.params, t.slots, t.expSeq, t.rabState, t.dlv) = (s.params, s.slots, s.expSeq, s.rabState, s.dlv))
    (hackq : s.rabState = .awaiting → t.ackq = s.ackq) : ReassemblyInv t := by
  simp only [Prod.mk.injEq] at heq
  obtain ⟨hp, hslots, hexp, hstate, hdlv⟩ := heq
  have hslot : t.slot = s.slot := by funext j; simp only [State.slot, hslots]
  have hindex : t.slotIndex = s.slotIndex := by funext q; simp only [State.slotIndex, hp]
  refine (h.buffer.congr (by rw [hp, hslots, hexp]) fun ha => ⟨hstate ▸ ha, hdlv, hackq (hstate ▸ ha)⟩).reassembly ?_
  rw [drainOne_eq_none, hstate, hslot, hindex, hexp, hp, hdlv]
  exact drainOne_eq_none.mp h.drained

/-- The first valid datagram finds no slot filled, so that leaving AWAITING gives the delivery loop nothing to do (rule R110). -/
theorem ReassemblyInv.heard {s : State} (h : ReassemblyInv s) : ReassemblyInv s.heard := by
  have hbuffer : BufferInv s.heard := h.buffer.congr rfl fun ha => absurd ha (heard_not_awaiting s)
  refine hbuffer.reassembly (drainOne_eq_none.mpr fun hstate hv hseq => ?_)
  have hne : s.rabState ≠ .awaiting := h.buffer.not_awaiting_of_valid hv
  rw [State.heard_rabState, if_neg hne] at hstate
  exact (drainOne_eq_none (s := s)).mp h.drained hstate hv hseq

/-- A cleared table with empty FIFOs in AWAITING meets the receiver's invariants. -/
theorem ReassemblyInv.of_cleared {s t : State} (h : ReassemblyInv s)
    (heq : (t.params, t.slots, t.expSeq, t.rabState, t.dlv, t.ackq) =
      (s.params, s.slots.map Slot.clear, 0, .awaiting, [], [])) : ReassemblyInv t := by
  simp only [Prod.mk.injEq] at heq
  obtain ⟨hp, hslots, hexp, hstate, hdlv, hackq⟩ := heq
  have hslot : ∀ j, t.slot j = (s.slot j).clear := fun j => by
    rw [State.slot, hslots]
    exact List.getD_map _ Slot.empty Slot.clear
  exact {
    length := by rw [hslots, hp, List.length_map, h.length]
    placed := fun j _ hv => by rw [hslot] at hv; nomatch hv
    cleared := fun j _ _ => by rw [hslot]; exact ⟨rfl, rfl, rfl⟩
    awaiting := fun _ => ⟨hexp, fun j _ => by rw [hslot]; rfl, hdlv, hackq⟩
    drained := drainOne_of_not_buffering (by rw [hstate]; nofun) }

/-- The payload of a datagram as long as MSS allows fits a slot (rules R34, R114). -/
theorem payload_length_le {s : State} {d : List Byte} (hc : ConfigInv s) (hread : s.pram.readBytes s.baseArg s.lenArg = some d)
    (hlen : s.lenArg - 8 ≤ s.mss.toNat) : (parsePacket d).payload.length ≤ s.params.mssMax := by
  have hd := Memory.length_readBytes hread
  have hmss := hc.mssHigh
  simp only [parsePacket, List.length_drop]
  omega

theorem Effect.reassemblyInv {i : Instr} {s u : State} (h : Effect i s u) (hc : ConfigInv s) (hs : ReassemblyInv s) :
    ReassemblyInv u := by
  cases h with
  | refrain => exact hs
  | encode => exact hs.congr rfl fun _ => rfl
  | send => exact hs.congr rfl fun _ => rfl
  | acknowledge => rw [retire_frame]; exact hs.congr rfl fun _ => rfl
  | tick => rw [tickStep_frame]; exact hs.congr rfl fun _ => rfl
  | takeRequest => exact hs.congr rfl fun _ => rfl
  | resetSender => exact hs.congr rfl fun _ => rfl
  | dropFraming => exact hs.congr rfl fun _ => rfl
  | dropCsum => exact hs.congr rfl fun _ => rfl
  | dropAhead => exact hs.heard.congr rfl fun _ => rfl
  | @accept _ d _ hread hlen _ hahead =>
    have hpush : BufferInv (s.heard.pushAck (parsePacket d).seq) :=
      hs.buffer.congr rfl fun ha => absurd ha (heard_not_awaiting s)
    exact (hpush.store hc.legal (heard_not_awaiting s) hahead (payload_length_le (s := s) hc hread hlen)).drain
  | @pop _ b rest hdlv =>
    have hrest : BufferInv { s with dlv := rest } := hs.buffer.congr rfl fun ha => by
      obtain ⟨-, -, hempty, -⟩ := hs.awaiting ha
      simp [hdlv] at hempty
    exact hrest.drain
  | emitAck _ hackq =>
    refine hs.congr rfl fun ha => ?_
    obtain ⟨-, -, -, hempty⟩ := hs.awaiting ha
    simp [hackq] at hempty
  | resetReceiver => exact hs.of_cleared rfl
  | resetAll => exact hs.of_cleared rfl

end Sys2Proof.Machine
end

section
/-! SUPPORT. Every step keeps the whole of the block's invariant. -/

namespace Sys2Proof.Machine

/-- What the invariant speaks of: the state without its operands, results, code, counters, interrupts, TIME and ports. -/
def State.bare (s : State) : State :=
  { State.resetOf s.params with
    win := s.win, timeout := s.timeout, mss := s.mss, sentLen := s.sentLen
    pram := s.pram, dlv := s.dlv, ackq := s.ackq
    trk := s.trk, trkState := s.trkState, nextSeq := s.nextSeq
    slots := s.slots, rabState := s.rabState, expSeq := s.expSeq }

theorem blockInv_bare {s : State} : BlockInv s.bare ↔ BlockInv s :=
  ⟨fun h => ⟨{ h.config with }, { h.storage with }, { h.tracker with }, h.reassembly.congr rfl fun _ => rfl⟩,
    fun h => ⟨{ h.config with }, { h.storage with }, { h.tracker with }, h.reassembly.congr rfl fun _ => rfl⟩⟩

theorem BlockInv.congr {s t : State} (h : BlockInv s) (heq : t.bare = s.bare) : BlockInv t :=
  blockInv_bare.mp (heq ▸ blockInv_bare.mpr h)

theorem Effect.blockInv {i : Instr} {s u : State} (h : Effect i s u) (hs : BlockInv s) : BlockInv u where
  config := h.configInv hs.config
  storage := h.storageInv hs.storage
  tracker := h.trackerInv hs.config.legal hs.tracker
  reassembly := h.reassemblyInv hs.config hs.reassembly

theorem Runs.blockInv {i : Instr} {s t : State} (h : Runs i s t) (hs : BlockInv s) : BlockInv t := by
  cases h with
  | mk heff => exact (heff.blockInv (hs.congr rfl)).congr rfl

theorem BlockInv.writeReg {s : State} {g : Reg} {v : Word} (h : BlockInv s) : BlockInv (s.writeReg g v) where
  config := h.config.writeReg
  storage := by rw [writeReg_frame]; exact { h.storage with }
  tracker := by rw [writeReg_frame]; exact { h.tracker with }
  reassembly := by rw [writeReg_frame]; exact h.reassembly.congr rfl fun _ => rfl

theorem BlockInv.memWrite {s : State} {a : Nat} {bs : List Byte} (h : BlockInv s) (hin : a + bs.length ≤ s.params.pramBytes) :
    BlockInv (s.memWrite a bs) where
  config := { h.config with }
  storage := h.storage.memWrite hin
  tracker := { h.tracker with }
  reassembly := h.reassembly.congr rfl fun _ => rfl

theorem BlockInv.powerOnReset {s : State} (h : BlockInv s) : BlockInv s.powerOnReset := by
  have hreset : BlockInv s.resetBlock := Effect.resetAll.blockInv h
  exact {
    config := { hreset.config with }
    storage := { hreset.storage with canonical := rfl, inside := nofun }
    tracker := { hreset.tracker with }
    reassembly := hreset.reassembly.congr rfl fun _ => rfl }

theorem StepTo.blockInv {s t : State} (h : StepTo s t) (hs : BlockInv s) : BlockInv t := by
  cases h with
  | idle => exact hs
  | answer => exact hs.congr rfl
  | @register rest => exact (hs.congr rfl : BlockInv ({ s with agenda := rest }.respond false 0)).writeReg
  | @pram rest _ _ _ _ hin => exact (hs.congr rfl : BlockInv ({ s with agenda := rest }.respond false 0)).memWrite hin
  | command _ hexec =>
    rcases execWord_next hexec with ⟨_, -, hrun⟩ | rfl
    · exact hrun.blockInv (hs.congr rfl)
    · exact hs.congr rfl
  | tick => exact Effect.tick.blockInv (hs.congr rfl)
  | @powerOn rest => exact (hs.congr rfl : BlockInv { s with agenda := rest }).powerOnReset

end Sys2Proof.Machine

namespace Sys2Proof.Proofs

open Sys2Proof.Machine

/-- Settles O59: every effect of a command, and every other answer of a step, keeps each part of the invariant. -/
theorem stepKeepsTheInvariant : Obligations.StepKeepsTheInvariant := fun _ _ hinv h => (step_stepTo h).blockInv hinv

end Sys2Proof.Proofs
end

section
/-! SUPPORT. The register map as a host sees it (rules R21 to R50), and what the two resets leave (rule R51). -/

namespace Sys2Proof.Machine

/-! ## Transactions at a register -/

theorem isError_register {dir : Dir} {a : BitVec 17} {v : Word} {g : Reg} (ha : a.toNat = g.offset) :
    BusReq.isError ⟨dir, a, .word, v⟩ = false := by
  simp only [BusReq.isError, ha]
  cases g <;> rfl

/-- A 4-byte read at a register's offset answers what the register reads and changes nothing else (rules R55, R65). -/
theorem hostStep_read {a : BitVec 17} {v : Word} (g : Reg) (s : State) (ha : a.toNat = g.offset) :
    hostStep ⟨.read, a, .word, v⟩ s = .next { s with resp := some ⟨false, s.readReg g⟩ } := by
  simp [hostStep, isError_register ha, hostRead, ha, State.respond]

/-- A 4-byte write at the offset of a register other than CMD stores what the register takes (rules R30, R56). -/
theorem hostStep_write {a : BitVec 17} {v : Word} (g : Reg) (s : State) (hg : g ≠ .cmd) (ha : a.toNat = g.offset) :
    hostStep ⟨.write, a, .word, v⟩ s = .next ({ s with resp := some ⟨false, 0⟩ }.writeReg g v) := by
  simp [hostStep, isError_register ha, hostWrite, ha, State.respond]

/-- A 4-byte write of a word to CMD runs what the word decodes to, once it is answered (rules R23, R78). -/
theorem hostStep_writeCmd {a : BitVec 17} {w : Word} (s : State) (ha : a.toNat = Reg.cmd.offset) :
    hostStep ⟨.write, a, .word, w⟩ s = execWord w { s with resp := some ⟨false, 0⟩ } := by
  simp [hostStep, isError_register ha, hostWrite, ha, State.respond]

/-- A field below 32 bits reads with zeros above it (rule R30). -/
theorem zeroExtend_eq_ofNat {n : Nat} (x : BitVec n) : x.zeroExtend 32 = BitVec.ofNat 32 x.toNat :=
  (BitVec.ofNat_toNat 32 x).symm

theorem toNat_append_eq_add {m n : Nat} (x : BitVec m) (y : BitVec n) : (x ++ y).toNat = x.toNat * 2 ^ n + y.toNat := by
  rw [BitVec.toNat_append, ← Nat.shiftLeft_add_eq_or_of_lt y.isLt, Nat.shiftLeft_eq]

/-- CAPS0..CAPS3 of a legal build hold its parameters whole (rules R5, R28). -/
theorem readReg_caps {s : State} (hlegal : s.params.legal = true) :
    s.readReg .caps0 =
        BitVec.ofNat 32 (s.params.txSlots + 2 ^ 8 * s.params.rxSlots + 2 ^ 16 * s.params.ackqDepth + 2 ^ 24 * 0x10) ∧
      s.readReg .caps1 = BitVec.ofNat 32 s.params.mssMax ∧ s.readReg .caps2 = BitVec.ofNat 32 s.params.pramBytes ∧
      s.readReg .caps3 = BitVec.ofNat 32 s.params.dlvBytes := by
  obtain ⟨htx, hrx, hackq, hmss, hpram, hdlv⟩ := s.params.legal_iff.mp hlegal
  refine ⟨BitVec.eq_of_toNat_eq ?_, ?_, ?_, ?_⟩
  · simp only [State.readReg, toNat_append_eq_add, BitVec.toNat_ofNat]
    omega
  all_goals
    simp only [State.readReg, zeroExtend_eq_ofNat, BitVec.toNat_ofNat]
    rw [Nat.mod_eq_of_lt (by omega)]

/-! ## STATUS -/

/-- A field above the lowest one of a packed word is a field of the rest. -/
theorem extractLsb'_append_above {m n j len : Nat} {x : BitVec m} {y : BitVec n} {z : BitVec len} (h : x.extractLsb' j len = z) :
    (x ++ y).extractLsb' (j + n) len = z := by
  rw [BitVec.extractLsb'_append_eq_of_le (Nat.le_add_left n j), Nat.add_sub_cancel, h]

theorem statusWord_code (s : State) : s.statusWord.extractLsb' 0 8 = s.code.number := BitVec.extractLsb'_append_eq_right

theorem statusWord_rabState (s : State) : s.statusWord.extractLsb' 8 2 = s.rabState.number :=
  extractLsb'_append_above BitVec.extractLsb'_append_eq_right

theorem statusWord_trkState (s : State) : s.statusWord.extractLsb' 10 2 = s.trkState.number :=
  extractLsb'_append_above <| extractLsb'_append_above BitVec.extractLsb'_append_eq_right

theorem statusWord_reserved (s : State) : s.statusWord.extractLsb' 12 4 = 0#4 :=
  extractLsb'_append_above <| extractLsb'_append_above <| extractLsb'_append_above BitVec.extractLsb'_append_eq_right

theorem statusWord_txCount (s : State) : s.statusWord.extractLsb' 16 8 = BitVec.ofNat 8 s.txCount :=
  extractLsb'_append_above <| extractLsb'_append_above <| extractLsb'_append_above <|
    extractLsb'_append_above BitVec.extractLsb'_append_eq_right

theorem statusWord_rxCount (s : State) : s.statusWord.extractLsb' 24 8 = BitVec.ofNat 8 s.rxCount :=
  extractLsb'_append_above <| extractLsb'_append_above <| extractLsb'_append_above <|
    extractLsb'_append_above BitVec.extractLsb'_append_eq_left

/-! ## irq_o -/

/-- With every interrupt disabled irq_o is low (rule R142). -/
theorem irqO_of_disabled {s : State} (h : s.irqEnable = 0) : s.irqO = false := by simp [State.irqO, h]

/-! ## The sentinel -/

/-- Byte i of a word's string, the most significant first (rule R10). -/
theorem getElem?_bytesBE32 (v : Word) {i : Nat} (hi : i < 4) : (bytesBE32 v)[i]? = some (v.extractLsb' (24 - 8 * i) 8) := by
  interval_cases i <;> rfl

theorem length_sentinel {s : State} (h : s.sentLen.toNat ≤ 8) : s.sentinel.length = s.sentLen.toNat := by
  simpa [State.sentinel] using h

/-- The sentinel's first four bytes come from SENT0 (rule R35). -/
theorem getElem?_sentinel_sent0 {s : State} {i : Nat} (hi : i < s.sentLen.toNat) (h4 : i < 4) :
    s.sentinel[i]? = some (s.sent0.extractLsb' (24 - 8 * i) 8) := by
  rw [State.sentinel, List.getElem?_take_of_lt hi, List.getElem?_append_left h4, getElem?_bytesBE32 _ h4]

/-- The sentinel's other bytes come from SENT1 (rule R35). -/
theorem getElem?_sentinel_sent1 {s : State} {i : Nat} (h : s.sentLen.toNat ≤ 8) (hi : i < s.sentLen.toNat) (h4 : 4 ≤ i) :
    s.sentinel[i]? = some (s.sent1.extractLsb' (24 - 8 * (i - 4)) 8) := by
  rw [State.sentinel, List.getElem?_take_of_lt hi, List.getElem?_append_right h4]
  exact getElem?_bytesBE32 _ (by simp; omega)

end Sys2Proof.Machine

namespace Sys2Proof.Proofs

open Sys2Proof.Machine

/-- Settles O5: a CMD write is answered and then runs `execWord`, by what the word decodes to. -/
theorem stepRunsTheDecodedCommand : Obligations.StepRunsTheDecodedCommand := by
  intro s w rest hlegal ha
  have hstep : step s = execWord w { s with agenda := rest, resp := some ⟨false, 0⟩ } := by
    simp only [step, hlegal, ha, if_true]
    exact hostStep_writeCmd _ rfl
  refine ⟨fun i hdec => ?_, fun why hdec => ?_⟩ <;> rw [hstep, execWord, hdec]
  rfl

/-- Settles O12: each offset is a register's, and reads that register's field. -/
theorem registerReadsReturnTheirFields : Obligations.RegisterReadsReturnTheirFields := by
  intro s
  refine ⟨?_, ?_, fun hlegal => ?_⟩
  · simp only [List.forall_mem_cons, List.not_mem_nil, false_imp_iff, implies_true, and_true]
    exact ⟨hostStep_read .id s rfl, hostStep_read .cmd s rfl, hostStep_read .arg0 s rfl, hostStep_read .arg1 s rfl,
      hostStep_read .arg2 s rfl, hostStep_read .res0 s rfl, hostStep_read .res1 s rfl, hostStep_read .res2 s rfl,
      hostStep_read .sent0 s rfl, hostStep_read .sent1 s rfl, hostStep_read .nextSeq s rfl, hostStep_read .expSeq s rfl,
      hostStep_read .failSeq s rfl, hostStep_read .time s rfl, hostStep_read .rxBytes s rfl, hostStep_read .cntFraming s rfl,
      hostStep_read .cntCsum s rfl, hostStep_read .cntDup s rfl, hostStep_read .cntRange s rfl, hostStep_read .cntRetx s rfl⟩
  · simp only [List.forall_mem_cons, List.not_mem_nil, false_imp_iff, implies_true, and_true, ← BitVec.toNat_ofNat,
      ← zeroExtend_eq_ofNat]
    exact ⟨hostStep_read .win s rfl, hostStep_read .timeout s rfl, hostStep_read .retry s rfl, hostStep_read .mss s rfl,
      hostStep_read .sentLen s rfl, hostStep_read .irqStatus s rfl, hostStep_read .irqEnable s rfl, hostStep_read .dlvLevel s rfl,
      hostStep_read .ackqLevel s rfl⟩
  · obtain ⟨h0, h1, h2, h3⟩ := readReg_caps hlegal
    simp only [List.forall_mem_cons, List.not_mem_nil, false_imp_iff, implies_true, and_true, ← h0, ← h1, ← h2, ← h3]
    exact ⟨hostStep_read .caps0 s rfl, hostStep_read .caps1 s rfl, hostStep_read .caps2 s rfl, hostStep_read .caps3 s rfl⟩

/-- Settles O13: the counts of a legal build fit their 8 bits, because the tables have at most 255 entries. -/
theorem statusReadPacksItsFields : Obligations.StatusReadPacksItsFields := by
  intro s hinv
  obtain ⟨⟨-, htx⟩, ⟨-, hrx⟩, -⟩ := s.params.legal_iff.mp hinv.config.legal
  have htxCount : s.txCount ≤ 255 := (List.countP_le_length.trans_eq hinv.tracker.length).trans htx
  have hrxCount : s.rxCount ≤ 255 := (List.countP_le_length.trans_eq hinv.reassembly.length).trans hrx
  refine ⟨s.statusWord, hostStep_read .status s rfl, ?_, ?_, ?_, statusWord_reserved s, ?_, ?_⟩
  · rw [statusWord_code]
    cases s.code <;> simp [Code.number]
  · rw [statusWord_rabState]
    cases s.rabState <;> simp [RabState.number]
  · rw [statusWord_trkState]
    cases s.trkState <;> simp [TrkState.number]
  · rw [statusWord_txCount, BitVec.toNat_ofNat, Nat.mod_eq_of_lt (Nat.lt_succ_of_le htxCount)]
    rfl
  · rw [statusWord_rxCount, BitVec.toNat_ofNat, Nat.mod_eq_of_lt (Nat.lt_succ_of_le hrxCount)]
    rfl

/-- Settles O14: each offset is a register's, and the WARL registers store the values of `legalWin` and its kin. -/
theorem registerWritesStoreTheLegalValue : Obligations.RegisterWritesStoreTheLegalValue := by
  intro s v hlegal
  refine ⟨hostStep_write .arg0 s nofun rfl, hostStep_write .arg1 s nofun rfl, hostStep_write .arg2 s nofun rfl,
    ⟨_, hostStep_write .win s nofun rfl, toNat_legalWin hlegal v⟩,
    ⟨_, hostStep_write .timeout s nofun rfl, toNat_legalTimeout v⟩,
    ⟨_, hostStep_write .retry s nofun rfl, by simp⟩,
    ⟨_, hostStep_write .mss s nofun rfl, toNat_legalMss hlegal v⟩,
    ⟨_, hostStep_write .sentLen s nofun rfl, toNat_legalSentLen v⟩,
    hostStep_write .sent0 s nofun rfl, hostStep_write .sent1 s nofun rfl,
    ⟨_, hostStep_write .irqStatus s nofun rfl, fun k hk => by simp [hk]⟩,
    ⟨_, hostStep_write .irqEnable s nofun rfl, by simp⟩, ?_⟩
  simp only [List.forall_mem_cons, List.not_mem_nil, false_imp_iff, implies_true, and_true]
  exact ⟨hostStep_write .id s nofun rfl, hostStep_write .caps0 s nofun rfl, hostStep_write .caps1 s nofun rfl,
    hostStep_write .caps2 s nofun rfl, hostStep_write .caps3 s nofun rfl, hostStep_write .status s nofun rfl,
    hostStep_write .res0 s nofun rfl, hostStep_write .res1 s nofun rfl, hostStep_write .res2 s nofun rfl,
    hostStep_write .nextSeq s nofun rfl, hostStep_write .expSeq s nofun rfl, hostStep_write .failSeq s nofun rfl,
    hostStep_write .time s nofun rfl, hostStep_write .dlvLevel s nofun rfl, hostStep_write .ackqLevel s nofun rfl,
    hostStep_write .rxBytes s nofun rfl, hostStep_write .cntFraming s nofun rfl, hostStep_write .cntCsum s nofun rfl,
    hostStep_write .cntDup s nofun rfl, hostStep_write .cntRange s nofun rfl, hostStep_write .cntRetx s nofun rfl⟩

/-- Settles O15: byte i of the cut string is byte i of SENT0 then SENT1, and a string is its length and its bytes. -/
theorem sentinelBytesComeFromTheirRegisters : Obligations.SentinelBytesComeFromTheirRegisters := by
  intro s h
  have hlen := length_sentinel h
  refine ⟨hlen, fun i => getElem?_sentinel_sent0, fun i => getElem?_sentinel_sent1 h, fun hzero => ?_, fun b => ?_⟩
  · exact List.eq_nil_of_length_eq_zero (by rw [hlen, hzero]; rfl)
  · rw [State.isSentinel, beq_iff_eq, ← hlen]
    constructor
    · rintro rfl
      exact ⟨rfl, fun _ _ => rfl⟩
    · rintro ⟨hb, hbytes⟩
      exact List.ext_getElem hb fun i hi hi' => Option.some.inj (by simpa [hi, hi'] using hbytes i hi)

/-- Settles O16: the masked word differs from 0 exactly when some bit of it is set. -/
theorem irqOutputIsTheMaskedOr : Obligations.IrqOutputIsTheMaskedOr := by
  intro s
  rw [State.irqO, bne_iff_ne, Ne, BitVec.eq_of_getLsbD_eq_iff]
  simp

/-- Settles O53: SRST and rst_n share `resetBlock`, which takes its values from the state after reset. -/
theorem resetsLeaveTheResetValues : Obligations.ResetsLeaveTheResetValues := by
  refine ⟨rfl, fun s => ⟨_, rfl, rfl, ?_⟩⟩
  rw [← List.map_const', irqO_of_disabled (s := s.prologue.resetBlock.complete .ok) rfl]
  and_intros <;> rfl

end Sys2Proof.Proofs
end

section
/-! SUPPORT. Packet RAM as the host and the commands reach it (rules R52 to R65): where a transaction goes, the lanes it carries, what
an unwritten byte stops, and which bytes a command writes. -/

namespace Sys2Proof.Machine

/-! ## The checks of a transaction -/

theorem Size.bytes_pos (z : Size) : 0 < z.bytes := by cases z <;> decide

theorem Size.bytes_eq_four {z : Size} : z.bytes = 4 ↔ z = .word := by cases z <;> decide

theorem BusReq.isError_iff {r : BusReq} :
    r.isError = true ↔ r.addr.toNat % r.size.bytes ≠ 0 ∨ (r.addr.toNat < 0x1000 ∧ r.size ≠ .word) := by
  simp only [BusReq.isError, decide_eq_true_eq]

theorem BusReq.isError_eq_false {r : BusReq} (halign : r.addr.toNat % r.size.bytes = 0)
    (hsize : r.addr.toNat < 0x1000 → r.size = .word) : r.isError = false := by
  rw [← Bool.not_eq_true, BusReq.isError_iff]
  rintro (hmis | ⟨hlow, hne⟩)
  · exact hmis halign
  · exact hne (hsize hlow)

/-- Above the last register the layout has nothing but packet RAM (rules R29, R52, R59). -/
theorem regionOf_reserved {p : Params} {a : Nat} (hreg : 0x088 ≤ a) (hpram : a < 0x10000 ∨ 0x10000 + p.pramBytes ≤ a) :
    regionOf p a = .reserved := by
  cases hr : regionOf p a with
  | register g =>
    have hoff := offset_of_regionOf hr
    have hlt := offset_lt g
    omega
  | pram o =>
    obtain ⟨haddr, hlt⟩ := pram_of_regionOf hr
    omega
  | reserved => rfl

/-- Either direction at a reserved offset is answered with 0 and does nothing else (rule R59). -/
theorem hostStep_reserved {s : State} {r : BusReq} (herr : r.isError = false)
    (hres : regionOf s.params r.addr.toNat = .reserved) : hostStep r s = .next (s.respond false 0) := by
  cases hdir : r.dir with
  | read => simp [hostStep, herr, hdir, hostRead, hres]
  | write => simp [hostStep, herr, hdir, hostWrite, hres]

/-- A read answers and does nothing else (rule R65). -/
theorem hostStep_of_read {s : State} {r : BusReq} (hdir : r.dir = .read) :
    Ensures (fun t => ∃ a, t = { s with resp := some a }) (hostStep r s) := by
  rcases hostStep_cases r s with ⟨-, h⟩ | ⟨-, -, ⟨g, -, h⟩ | ⟨o, -, h⟩ | ⟨-, h⟩⟩ | ⟨-, hwrite, -⟩
  · rw [h]; exact .next ⟨_, rfl⟩
  · rw [h]; exact .next ⟨_, rfl⟩
  · rw [h]; exact .memRead fun _ _ => .next ⟨_, rfl⟩
  · rw [h]; exact .next ⟨_, rfl⟩
  · rw [hdir] at hwrite; nomatch hwrite

/-! ## Transactions in packet RAM -/

section

variable {s : State} {z : Size} {p : Nat} {v : Word} (hlegal : s.params.legal = true) (halign : p % z.bytes = 0)
  (hin : p + z.bytes ≤ s.params.pramBytes)

include hlegal hin

/-- The aperture holds all of packet RAM: its addresses fit 17 bits (rules R5, R52). -/
theorem toNat_pramAddr : (BitVec.ofNat 17 (0x10000 + p)).toNat = 0x10000 + p := by
  obtain ⟨-, -, -, -, ⟨-, hpram, -⟩, -⟩ := s.params.legal_iff.mp hlegal
  have hpos := z.bytes_pos
  rw [BitVec.toNat_ofNat]
  exact Nat.mod_eq_of_lt (by omega)

theorem regionOf_pramAddr : regionOf s.params (BitVec.ofNat 17 (0x10000 + p)).toNat = .pram p := by
  have hpos := z.bytes_pos
  rw [toNat_pramAddr hlegal hin]
  exact regionOf_pram (by omega)

include halign

/-- An aligned packet-RAM offset is an aligned address, since packet RAM begins at a multiple of 4 (rules R52, R55). -/
theorem isError_pramAddr {dir : Dir} : BusReq.isError ⟨dir, BitVec.ofNat 17 (0x10000 + p), z, v⟩ = false := by
  have haddr := toNat_pramAddr hlegal hin
  refine BusReq.isError_eq_false ?_ fun hlow => ?_
  · simp only [haddr]
    cases z <;> simp only [Size.bytes] at halign ⊢ <;> omega
  · simp only [haddr] at hlow
    omega

theorem hostStep_readPram :
    hostStep ⟨.read, BitVec.ofNat 17 (0x10000 + p), z, v⟩ s =
      s.memRead p z.bytes fun d => .next (s.respond false (wordOfLanes d)) := by
  simp only [hostStep, isError_pramAddr hlegal halign hin, hostRead, regionOf_pramAddr hlegal hin, Bool.false_eq_true, if_false]

theorem hostStep_writePram :
    hostStep ⟨.write, BitVec.ofNat 17 (0x10000 + p), z, v⟩ s =
      .next ((s.respond false 0).memWrite p (lanesOfWord v z.bytes)) := by
  simp only [hostStep, isError_pramAddr hlegal halign hin, hostWrite, regionOf_pramAddr hlegal hin, Bool.false_eq_true, if_false]

end

/-- The low bits of a word are its own, and those above are 0. -/
theorem getLsbD_ofNat_mod_two_pow (v : Word) (m i : Nat) :
    (BitVec.ofNat 32 (v.toNat % 2 ^ m)).getLsbD i = (decide (i < m) && v.getLsbD i) := by
  rw [BitVec.getLsbD_ofNat, Nat.testBit_mod_two_pow, BitVec.testBit_toNat]
  by_cases hi : i < 32
  · simp [hi]
  · simp [hi, BitVec.getLsbD_of_ge v i (not_lt.mp hi)]

/-- The lanes of a write, read back, are the low bytes of the word written, with zeros above them (rule R58). -/
theorem wordOfLanes_lanesOfWord (v : Word) (n : Nat) :
    wordOfLanes (lanesOfWord v n) = BitVec.ofNat 32 (v.toNat % 2 ^ (8 * n)) := by
  induction n generalizing v with
  | zero => simp [lanesOfWord, wordOfLanes, Nat.mod_one]
  | succ n ih =>
    refine BitVec.eq_of_getLsbD_eq fun i hi => ?_
    simp only [lanesOfWord, wordOfLanes, ih, BitVec.getLsbD_or, BitVec.getLsbD_shiftLeft, getLsbD_ofNat_mod_two_pow]
    by_cases hlow : i < 8
    · have hin : i < 8 * (n + 1) := by omega
      simp [hi, hlow, hin]
    · have hstep : i - 8 < 8 * n ↔ i < 8 * (n + 1) := by omega
      have hback : 8 + (i - 8) = i := by omega
      simp [hi, hlow, hstep, hback]

/-! ## Unwritten bytes -/

/-- A MemRead that covers a byte without a value is refused (rule R54). -/
theorem memRead_unwritten {s : State} {a x n : Nat} (hx : s.pram.read? x = none) (hlo : a ≤ x) (hhi : x < a + n)
    (k : List Byte → Result) : s.memRead a n k = .refused .unwrittenPram := by
  obtain ⟨j, rfl⟩ := Nat.exists_eq_add_of_le hlo
  exact memRead_none ((Memory.readBytes_eq_none s.pram a n).mpr ⟨j, by omega, hx⟩) k

/-! ## The bytes a command writes -/

/-- How many bytes at ARG1 a command may write: a packet's header, or one acknowledgment (rules R63, R159). -/
def writtenBytes (i : Instr) : Nat :=
  match i with
  | .ckEnc => 8
  | .txSend => 8
  | .rxAckq => 4
  | _ => 0

@[simp] theorem drain_pram (s : State) : s.drain.1.pram = s.pram := by rw [drain_frame]

@[simp] theorem store_pram (s : State) (seq : Word) (p : List Byte) : (s.store seq p).pram = s.pram := by
  unfold State.store
  split <;> rfl

@[simp] theorem retire_pram (s : State) (i : Nat) : (s.retire i).pram = s.pram := by rw [retire_frame]

@[simp] theorem tickStep_pram (s : State) : s.tickStep.pram = s.pram := by rw [tickStep_frame]

/-- No command writes a byte outside its own at ARG1. -/
theorem Effect.read?_outside {i : Instr} {s u : State} {a : Nat} (h : Effect i s u)
    (ha : a < s.arg1.toNat ∨ s.arg1.toNat + writtenBytes i ≤ a) : u.pram.read? a = s.pram.read? a := by
  cases h with
  | refrain => rfl
  | encode => exact read?_writeHeader_outside s s.baseArg a _ _ ha
  | send => exact read?_writeHeader_outside s s.baseArg a _ _ ha
  | acknowledge => rw [retire_pram]
  | tick => rw [tickStep_pram]
  | takeRequest => rfl
  | resetSender => rfl
  | dropFraming => rfl
  | dropCsum => rfl
  | dropAhead => rfl
  | accept => rw [drain_pram, store_pram]; rfl
  | pop => rw [drain_pram]
  | emitAck => exact Memory.read?_writeBytes_outside _ s.baseArg a _ ha
  | resetReceiver => rfl
  | resetAll => rfl

theorem Runs.read?_outside {i : Instr} {s t : State} {a : Nat} (h : Runs i s t)
    (ha : a < s.arg1.toNat ∨ s.arg1.toNat + writtenBytes i ≤ a) : t.pram.read? a = s.pram.read? a := by
  cases h with
  | mk heff => exact heff.read?_outside ha

end Sys2Proof.Machine

namespace Sys2Proof.Proofs

open Sys2Proof.Machine

/-- Settles O7: the two conditions are those of `BusReq.isError`. -/
theorem busErrorsHaveNoEffect : Obligations.BusErrorsHaveNoEffect := by
  intro s r hbad
  have herr : r.isError = true :=
    BusReq.isError_iff.mpr (hbad.imp_right fun ⟨hlow, hsize⟩ => ⟨Nat.lt_succ_of_le hlow, Size.bytes_eq_four.not.mp hsize⟩)
  rw [hostStep, if_pos herr]
  rfl

/-- Settles O8: the three ranges lie above the registers and outside packet RAM. -/
theorem reservedOffsetsReadZeroAndIgnoreWrites : Obligations.ReservedOffsetsReadZeroAndIgnoreWrites := by
  intro s r halign hrange
  refine hostStep_reserved (BusReq.isError_eq_false halign fun hlow => ?_) (regionOf_reserved ?_ ?_)
  · rcases hrange with ⟨-, -, hword⟩ | hmid | hend
    · exact hword
    · omega
    · omega
  · omega
  · omega

/-- Settles O9: every kind of read answers only. -/
theorem busReadsHaveNoSideEffect : Obligations.BusReadsHaveNoSideEffect := fun _ t _ hdir h => hostStep_of_read hdir t h

/-- Settles O10: the write stores the word's lanes as one byte string, which reads back whole. -/
theorem pramLanesAreLittleEndian : Obligations.PramLanesAreLittleEndian := by
  intro s z p v hlegal halign hin
  have hlen := length_lanesOfWord v z.bytes
  refine ⟨_, hostStep_writePram hlegal halign hin, fun k hk => ?_, fun a ha => ?_, rfl, ?_⟩
  · rw [State.memWrite_pram, Memory.read?_writeBytes, if_pos (by omega), Nat.add_sub_cancel_left, getElem?_lanesOfWord v _ k hk]
  · exact Memory.read?_writeBytes_outside _ p a _ (by rwa [hlen])
  · have hback := Memory.readBytes_writeBytes s.pram p (lanesOfWord v z.bytes)
    rw [hlen] at hback
    rw [hostStep_readPram (s := (s.respond false 0).memWrite p _) hlegal halign hin, memRead_some hback, wordOfLanes_lanesOfWord]
    rfl

/-- Settles O11: the checks before each command's MemRead, taken in its rule's order, pass, and the MemRead covers the unwritten
byte. -/
theorem unwrittenPramReadIsRefused : Obligations.UnwrittenPramReadIsRefused := by
  intro s a hnone
  have hread : ∀ {b n k}, b ≤ a → a < b + n → s.prologue.memRead b n k = .refused .unwrittenPram :=
    fun hlo hhi => memRead_unwritten hnone hlo hhi _
  refine ⟨fun z p hlegal halign hin hlo hhi => ?_, fun hin hlo hhi => ?_, fun hin hmss hlo hhi => ?_⟩
  · rw [hostStep_readPram hlegal halign hin]
    exact memRead_unwritten hnone hlo hhi _
  · have hrange : s.prologue.inRange s.prologue.baseArg s.prologue.lenArg = true := (inRange_iff _ _ _).mpr hin
    refine ⟨(if_pos hrange).trans (hread hlo hhi), fun hlen => ?_, fun hlen hhead => ?_, fun hfour => ?_, fun hlen hroom => ?_⟩
    · exact (if_pos hrange).trans <| (if_neg (not_lt.mpr hlen)).trans (hread hlo hhi)
    · exact (if_pos hrange).trans <| (if_neg (not_lt.mpr hlen)).trans (hread hlo hhead)
    · exact (if_pos hrange).trans <| (if_pos hfour).trans (hread hlo (hfour ▸ hhi))
    · exact (if_pos hrange).trans <| (if_neg hroom).trans <| (if_neg (not_lt.mpr hlen)).trans (hread hlo hhi)
  · have hrange : s.prologue.inRange s.prologue.baseArg (8 + s.prologue.lenArg) = true :=
      (inRange_iff _ _ _).mpr (by rw [← Nat.add_assoc]; exact hin)
    refine ⟨(if_neg (not_lt.mpr hmss)).trans <| (if_pos hrange).trans (hread hlo hhi), fun hopen hseq hwin => ?_⟩
    have hsend : exec .txSend s = s.prologue.sendOpen := by simp only [exec, execTxSend, State.prologue_trkState, hopen]
    rw [hsend]
    exact (if_neg (not_lt.mpr hmss)).trans <| (if_pos hrange).trans <| (if_neg hseq).trans <|
      (if_neg (not_le.mpr hwin)).trans (hread hlo hhi)

/-- Settles O54: no effect of a command reaches beyond its own bytes at ARG1. -/
theorem commandsWriteOnlyTheirPramBytes : Obligations.CommandsWriteOnlyTheirPramBytes := by
  intro i s t a h
  have hkeep : ∀ n, writtenBytes i = n → a < s.arg1.toNat ∨ s.arg1.toNat + n ≤ a → t.pram.read? a = s.pram.read? a := by
    rintro _ rfl
    exact (exec_runs i s t h).read?_outside
  refine ⟨fun hi ha => hkeep 8 ?_ (by omega), fun hi ha => hkeep 4 ?_ (by omega), fun henc hsend hackq => hkeep 0 ?_ (by omega)⟩
  · rcases hi with rfl | rfl <;> rfl
  · rw [hi]; rfl
  · cases i with
    | ckEnc => exact absurd rfl henc
    | txSend => exact absurd rfl hsend
    | rxAckq => exact absurd rfl hackq
    | _ => rfl

end Sys2Proof.Proofs
end

section
/-! SUPPORT. The opcode map said once (rules R74, R76, R77, R81): which command or which refusal each number has. -/

namespace Sys2Proof

/-! ## The fields of a command word -/

theorem toNat_cmdRsv (w : Word) : (cmdRsv w).toNat = w.toNat / 256 := by
  rw [cmdRsv, BitVec.extractLsb'_toNat, Nat.shiftRight_eq_div_pow]
  exact Nat.mod_eq_of_lt (Nat.div_lt_of_lt_mul w.isLt)

theorem toNat_cmdUnit (w : Word) : (cmdUnit w).toNat = w.toNat / 16 % 16 := by
  rw [cmdUnit, BitVec.extractLsb'_toNat, Nat.shiftRight_eq_div_pow]

theorem toNat_cmdFn (w : Word) : (cmdFn w).toNat = w.toNat % 16 := by
  rw [cmdFn, BitVec.extractLsb'_toNat, Nat.shiftRight_zero]

/-- RSV is 0 exactly in the words of one opcode byte (rule R74). -/
theorem cmdRsv_eq_zero_iff (w : Word) : cmdRsv w = 0 ↔ w.toNat ≤ 0xFF := by
  rw [← BitVec.toNat_inj, toNat_cmdRsv]
  show w.toNat / 256 = 0 ↔ _
  omega

/-- The opcode is UNIT and FN together (rule R74). -/
theorem toNat_eq_unit_fn {w : Word} (h : cmdRsv w = 0) : w.toNat = 16 * (cmdUnit w).toNat + (cmdFn w).toNat := by
  have := (cmdRsv_eq_zero_iff w).mp h
  rw [toNat_cmdUnit, toNat_cmdFn]
  omega

/-! ## The map -/

/-- The numbers each of the four groups of rule R77 refuses. -/
def Illegal.Covers (why : Illegal) (n : Nat) : Prop :=
  match why with
  | .reservedBits => 0xFF < n
  | .opcodeZero => n = 0x00
  | .unassignedFunction =>
    (0x05 ≤ n ∧ n ≤ 0x0F) ∨ (0x16 ≤ n ∧ n ≤ 0x1F) ∨ (0x25 ≤ n ∧ n ≤ 0x2F) ∨ (0x32 ≤ n ∧ n ≤ 0x3F)
  | .unassignedUnit => 0x40 ≤ n ∧ n ≤ 0xFF

/-- What the opcode map gives a number: a command its encoding, a refusal the numbers of its group (rules R76, R77). -/
def OpcodeMap (n : Nat) (d : Decoded) : Prop :=
  match d with
  | .command i => n = (encode i).toNat
  | .illegal why => why.Covers n

theorem opcodeMap_decodeCku : ∀ fn < 16, OpcodeMap (0x00 + fn) (decodeCku fn)
  | 0, _ | 1, _ | 2, _ | 3, _ | 4, _ => rfl
  | _ + 5, h => .inl (by omega)

theorem opcodeMap_decodeTrk : ∀ fn < 16, OpcodeMap (0x10 + fn) (decodeTrk fn)
  | 0, _ | 1, _ | 2, _ | 3, _ | 4, _ | 5, _ => rfl
  | _ + 6, h => .inr (.inl (by omega))

theorem opcodeMap_decodeRab : ∀ fn < 16, OpcodeMap (0x20 + fn) (decodeRab fn)
  | 0, _ | 1, _ | 2, _ | 3, _ | 4, _ => rfl
  | _ + 5, h => .inr (.inr (.inl (by omega)))

theorem opcodeMap_decodeCtl : ∀ fn < 16, OpcodeMap (0x30 + fn) (decodeCtl fn)
  | 0, _ | 1, _ => rfl
  | _ + 2, h => .inr (.inr (.inr (by omega)))

/-- The decoder follows the opcode map on every word (rule R81). -/
theorem opcodeMap_decode (w : Word) : OpcodeMap w.toNat (decode w) := by
  have hfn := (cmdFn w).isLt
  unfold decode
  split
  next hrsv => exact not_le.mp ((cmdRsv_eq_zero_iff w).not.mp hrsv)
  next hrsv =>
    rw [not_not] at hrsv
    have hop := toNat_eq_unit_fn hrsv
    split
    next hunit => rw [hop, hunit]; exact opcodeMap_decodeCku _ hfn
    next hunit => rw [hop, hunit]; exact opcodeMap_decodeTrk _ hfn
    next hunit => rw [hop, hunit]; exact opcodeMap_decodeRab _ hfn
    next hunit => rw [hop, hunit]; exact opcodeMap_decodeCtl _ hfn
    next h0 h1 h2 h3 =>
      change _ ≠ _ at h0 h1 h2 h3
      exact ⟨by omega, (cmdRsv_eq_zero_iff w).mp hrsv⟩

/-! ## The map gives a number one meaning only -/

theorem decode_encode (i : Instr) : decode (encode i) = .command i := by cases i <;> rfl

/-- The opcodes of rule R76. -/
theorem toNat_encode_assigned (i : Instr) :
    (0x01 ≤ (encode i).toNat ∧ (encode i).toNat ≤ 0x04) ∨ (0x10 ≤ (encode i).toNat ∧ (encode i).toNat ≤ 0x15) ∨
      (0x20 ≤ (encode i).toNat ∧ (encode i).toNat ≤ 0x24) ∨ (0x30 ≤ (encode i).toNat ∧ (encode i).toNat ≤ 0x31) := by
  cases i <;> decide

/-- No command lies in a group of rule R77. -/
theorem Illegal.not_covers_encode (why : Illegal) (i : Instr) : ¬ why.Covers (encode i).toNat := by
  have hop := toNat_encode_assigned i
  cases why <;> simp only [Illegal.Covers] <;> omega

/-- The four groups of rule R77 are disjoint. -/
theorem Illegal.covers_unique {why why' : Illegal} {n : Nat} (h : why.Covers n) (h' : why'.Covers n) : why = why' := by
  by_contra hne
  cases why <;> cases why' <;> simp only [Illegal.Covers, not_true_eq_false, reduceCtorEq] at h h' hne <;> omega

theorem encode_injective : Function.Injective encode := by
  intro i j h
  have hdec := congrArg decode h
  rw [decode_encode, decode_encode] at hdec
  exact Decoded.command.inj hdec

theorem OpcodeMap.unique {n : Nat} {d d' : Decoded} (h : OpcodeMap n d) (h' : OpcodeMap n d') : d = d' :=
  match d, d', h, h' with
  | .command _, .command _, h, h' => congrArg _ (encode_injective (BitVec.eq_of_toNat_eq (h.symm.trans h')))
  | .command i, .illegal why, h, h' => absurd (h ▸ h') (why.not_covers_encode i)
  | .illegal why, .command i, h, h' => absurd (h' ▸ h) (why.not_covers_encode i)
  | .illegal _, .illegal _, h, h' => congrArg _ (Illegal.covers_unique h h')

/-- Decode is the opcode map, read from the word (rule R81). -/
theorem decode_eq_iff (w : Word) (d : Decoded) : decode w = d ↔ OpcodeMap w.toNat d :=
  ⟨fun h => h ▸ opcodeMap_decode w, (opcodeMap_decode w).unique⟩

end Sys2Proof

namespace Sys2Proof.Machine

/-- An illegal word ends with ILLEGAL_CMD and does nothing else (rules R77, R78). -/
theorem execWord_of_illegal {w : Word} {why : Illegal} (h : decode w = .illegal why) (s : State) :
    execWord w s = .next (s.hostError .illegalCmd) := by
  rw [execWord, h]
  rfl

/-! ## Pseudo-instructions, by operand shape (rules R75, R83) -/

theorem expand_cmd {i : Instr} {ops : List Operand} (h : operandsOf i = ops) (vals : List Word) :
    (Stmt.cmd i vals).expand = (ops.zip vals).map (fun x => wrReg x.1.reg x.2) ++ [wrReg .cmd (encode i)] := by
  rw [Stmt.expand, h]

end Sys2Proof.Machine

namespace Sys2Proof.Proofs

open Sys2Proof.Machine

/-- Settles O1: the opcode map gives a command its encoding and no other number. -/
theorem decodeReadsExactlyTheEncodings : Obligations.DecodeReadsExactlyTheEncodings :=
  ⟨fun i _ => decode_encode i, fun w i h => (BitVec.eq_of_toNat_eq ((decode_eq_iff w (.command i)).mp h)).symm⟩

/-- Settles O2: each group is what the opcode map gives its refusal. -/
theorem illegalWordsEndWithIllegalCmd : Obligations.IllegalWordsEndWithIllegalCmd := fun w =>
  ⟨decode_eq_iff w (.illegal .reservedBits), decode_eq_iff w (.illegal .opcodeZero),
    decode_eq_iff w (.illegal .unassignedFunction), decode_eq_iff w (.illegal .unassignedUnit),
    fun _ s h => execWord_of_illegal h s⟩

/-- Settles O3: the first five are encodings, and the last three lie in the groups of rule R77. -/
theorem writtenOutWordsDecode : Obligations.WrittenOutWordsDecode := by
  refine ⟨decode_encode .ckEnc, decode_encode .txSend, decode_encode .txTick, decode_encode .rxPut, decode_encode .srst,
    ?_, ?_, ?_⟩
  · exact (decode_eq_iff _ (.illegal .reservedBits)).mpr (show 0xFF < 0x112 by decide)
  · exact (decode_eq_iff _ (.illegal .opcodeZero)).mpr rfl
  · exact (decode_eq_iff _ (.illegal .unassignedFunction)).mpr (.inr (.inr (.inl (by decide))))

/-- Settles O4: the commands of each group share one list of operands. -/
theorem pseudoInstructionsExpandToArgAndCmdWrites : Obligations.PseudoInstructionsExpandToArgAndCmdWrites := by
  intro seq base len
  have hpair : ∀ i ∈ [Instr.ckCrc, .ckDec, .ckVfy, .txSend, .txAck, .rxPut], operandsOf i = [.base, .len] := by decide
  have hseq : ∀ i ∈ [Instr.txQry, .rxQry], operandsOf i = [.seq] := by decide
  have hnone : ∀ i ∈ [Instr.txTick, .txRetx, .txRst, .rxPop, .rxRst, .nop, .srst], operandsOf i = [] := by decide
  exact ⟨rfl, fun i hi => expand_cmd (hpair i hi) [base, len], rfl, fun i hi => expand_cmd (hseq i hi) [seq],
    fun i hi => expand_cmd (hnone i hi) []⟩

end Sys2Proof.Proofs
end

section
/-! SUPPORT. The packet codec and what its checksum detects (rules R85 to R89): every step of the CRC register can be undone, so a
change within one byte changes the CRC-32. -/

namespace Sys2Proof.Machine

/-! ## The CRC register -/

theorem getLsbD_crcShift (c : Word) (i : Nat) :
    (crcShift c).getLsbD i = (c.getLsbD (i + 1) ^^ (c.getLsbD 0 && (0xEDB88320 : Word).getLsbD i)) := by
  unfold crcShift
  split
  next h => rw [BitVec.getLsbD_xor, BitVec.getLsbD_ushiftRight, h, Bool.true_and, Nat.add_comm]
  next h => rw [BitVec.getLsbD_ushiftRight, Bool.eq_false_of_not_eq_true h, Bool.false_and, Bool.xor_false, Nat.add_comm]

/-- A shift loses nothing: bit 31 of the polynomial is set, so bit 31 after the shift is bit 0 before it. -/
theorem crcShift_injective : Function.Injective crcShift := by
  intro c d h
  have hbit (i : Nat) : (crcShift c).getLsbD i = (crcShift d).getLsbD i := by rw [h]
  simp only [getLsbD_crcShift] at hbit
  have hlow : c.getLsbD 0 = d.getLsbD 0 := by simpa using hbit 31
  refine BitVec.eq_of_getLsbD_eq fun i _ => ?_
  cases i with
  | zero => exact hlow
  | succ i => exact Bool.xor_left_inj.mp (hlow ▸ hbit i)

/-- A byte is eight shifts, so it loses nothing of the register it was combined with. -/
theorem crcByte_eq_iff {c c' : Word} {b b' : Byte} :
    crcByte c b = crcByte c' b' ↔ c ^^^ b.zeroExtend 32 = c' ^^^ b'.zeroExtend 32 :=
  (crcShift_injective.iterate 8).eq_iff

theorem crcByte_left_injective (b : Byte) : Function.Injective (crcByte · b) := fun _ _ h =>
  (BitVec.xor_left_inj _).mp (crcByte_eq_iff.mp h)

theorem crcByte_right_injective (c : Word) : Function.Injective (crcByte c) := by
  intro a b h
  have hzext := (BitVec.xor_right_inj c).mp (crcByte_eq_iff.mp h)
  simpa using congrArg (BitVec.setWidth 8) hzext

/-- Two registers that differ before a byte string differ after it. -/
theorem foldl_crcByte_injective (bs : List Byte) : Function.Injective (bs.foldl crcByte) := by
  induction bs with
  | nil => exact Function.injective_id
  | cons b bs ih => exact ih.comp (crcByte_left_injective b)

theorem crc32_append_cons_inj {xs ys : List Byte} {a b : Byte} : crc32 (xs ++ a :: ys) = crc32 (xs ++ b :: ys) ↔ a = b := by
  simp only [crc32, BitVec.xor_left_inj, List.foldl_append, List.foldl_cons]
  rw [(foldl_crcByte_injective ys).eq_iff, (crcByte_right_injective _).eq_iff]

/-- CRC-32 tells apart two strings that differ in one byte (rule R89). -/
theorem crc32_set_ne {d : List Byte} {i : Nat} {b : Byte} (hne : d.set i b ≠ d) : crc32 (d.set i b) ≠ crc32 d := by
  intro hcrc
  by_cases hi : i < d.length
  · have hsplit (x : Byte) : d.set i x = d.take i ++ x :: d.drop (i + 1) := by
      rw [List.set_eq_take_append_cons_drop, if_pos hi]
    have hself : d.set i d[i] = d := List.set_getElem_self hi
    have hb : b = d[i] := by rwa [← hself, List.set_set, hsplit, hsplit, crc32_append_cons_inj] at hcrc
    exact hne (hb ▸ hself)
  · exact hne (List.set_eq_of_length_le (not_lt.mp hi))

/-! ## The codec -/

/-- Every 4-byte string is the big-endian string of a word (rule R10). -/
theorem exists_bytesBE32_eq {d : List Byte} (h : d.length = 4) : ∃ v, bytesBE32 v = d := by
  obtain ⟨a, b, c, e, rfl⟩ := List.length_eq_four.mp h
  have h0 : (a ++ b ++ c ++ e).extractLsb' 0 8 = e := BitVec.extractLsb'_append_eq_right
  have h1 : (a ++ b ++ c ++ e).extractLsb' 8 8 = c := extractLsb'_append_above BitVec.extractLsb'_append_eq_right
  have h2 : (a ++ b ++ c ++ e).extractLsb' 16 8 = b :=
    extractLsb'_append_above <| extractLsb'_append_above BitVec.extractLsb'_append_eq_right
  have h3 : (a ++ b ++ c ++ e).extractLsb' 24 8 = a :=
    extractLsb'_append_above <| extractLsb'_append_above BitVec.extractLsb'_append_eq_left
  exact ⟨a ++ b ++ c ++ e, by rw [bytesBE32, h0, h1, h2, h3]⟩

/-- Any sequence number, checksum and payload decode to themselves (rule R88). -/
theorem decodePacket_append (seq c : Word) (p : List Byte) :
    decodePacket (bytesBE32 seq ++ bytesBE32 c ++ p) = some ⟨seq, c, p⟩ := by
  have hlen : ¬ (bytesBE32 seq ++ bytesBE32 c ++ p).length < 8 := by simp; omega
  have hparse : parsePacket (bytesBE32 seq ++ bytesBE32 c ++ p) = ⟨wordBE32 (bytesBE32 seq), wordBE32 (bytesBE32 c), p⟩ := rfl
  rw [decodePacket, if_neg hlen, hparse, wordBE32_bytesBE32, wordBE32_bytesBE32]

/-- They are valid exactly when the checksum is the digest (rule R88). -/
theorem datagramValid_append (seq c : Word) (p : List Byte) :
    datagramValid (bytesBE32 seq ++ bytesBE32 c ++ p) = true ↔ digest seq p = c := by
  rw [datagramValid, decodePacket_append]
  exact beq_iff_eq

theorem datagramValid_encodePacket (seq : Word) (p : List Byte) : datagramValid (encodePacket seq p) = true :=
  (datagramValid_append seq _ p).mpr rfl

/-- The digest tells apart two packets whose covered bytes differ in one byte (rules R86, R89). -/
theorem digest_ne_of_set {seq seq' : Word} {p p' : List Byte} {i : Nat} {b : Byte}
    (hset : (bytesBE32 seq ++ p).set i b = bytesBE32 seq' ++ p') (hne : bytesBE32 seq' ++ p' ≠ bytesBE32 seq ++ p) :
    digest seq' p' ≠ digest seq p := by
  rw [digest, digest, ← hset]
  exact crc32_set_ne (hset ▸ hne)

/-- A change within one byte makes an encoded packet invalid: in the checksum it changes that alone, elsewhere the digest alone
(rule R89). -/
theorem datagramValid_set_encodePacket {seq : Word} {p : List Byte} {i : Nat} {b : Byte}
    (hne : (encodePacket seq p).set i b ≠ encodePacket seq p) : datagramValid ((encodePacket seq p).set i b) = false := by
  have hword (v : Word) (j : Nat) : ∃ w, bytesBE32 w = (bytesBE32 v).set j b := exists_bytesBE32_eq (by simp)
  rw [Bool.eq_false_iff, Ne]
  unfold encodePacket at hne ⊢
  by_cases hhead : i < 8
  · rw [List.set_append_left _ _ hhead] at hne ⊢
    by_cases hi : i < 4
    · obtain ⟨w, hw⟩ := hword seq i
      rw [List.set_append_left _ _ hi, ← hw] at hne ⊢
      rw [datagramValid_append]
      exact digest_ne_of_set (by rw [List.set_append_left _ _ hi, hw]) (by simpa using hne)
    · obtain ⟨w, hw⟩ := hword (digest seq p) (i - 4)
      rw [List.set_append_right _ _ (not_lt.mp hi), length_bytesBE32, ← hw] at hne ⊢
      rw [datagramValid_append]
      rintro rfl
      exact hne rfl
  · rw [List.set_append_right _ _ (not_lt.mp hhead)] at hne ⊢
    rw [datagramValid_append]
    exact digest_ne_of_set (List.set_append_right (i - 4) b (show 4 ≤ i - 4 by omega)) (by simpa using hne)

/-- A flipped bit changes the datagram. -/
theorem flipBit_ne {d : List Byte} {k : Nat} (hk : k < 8 * d.length) : flipBit d k ≠ d := by
  have hi : k / 8 < d.length := by omega
  intro h
  have hbyte : d[k / 8] ^^^ (1#8 <<< (k % 8)) = d[k / 8] := by
    simpa [flipBit, hi] using congrArg (·[k / 8]?) h
  have hbit := congrArg (·.getLsbD (k % 8)) hbyte
  simp [Nat.mod_lt] at hbit

end Sys2Proof.Machine

namespace Sys2Proof.Proofs

open Sys2Proof.Machine

/-- Settles O20: the fields of a datagram decode to themselves, and the transmitted checksum is the digest. -/
theorem encodedPacketsDecodeAndAreValid : Obligations.EncodedPacketsDecodeAndAreValid := fun seq p =>
  ⟨by simp [encodePacket]; omega, decodePacket_append seq (digest seq p) p, datagramValid_encodePacket seq p⟩

/-- Settles O21: a flipped bit is a change within one byte. -/
theorem singleBitFlipsAreRejected : Obligations.SingleBitFlipsAreRejected := fun _ _ _ hk =>
  datagramValid_set_encodePacket (flipBit_ne hk)

end Sys2Proof.Proofs
end

section
/-! SUPPORT. The commands of the checksum and codec unit (rules R90 to R93). -/

namespace Sys2Proof.Machine

/-- The range check of a command passes (rule R11). -/
theorem checkRange_of_le {s : State} {a n : Nat} {x y : Result} (h : a + n ≤ s.params.pramBytes) :
    (if s.inRange a n then x else y) = x :=
  if_pos ((inRange_iff s a n).mpr h)

/-- The range check of a command fails (rule R11). -/
theorem checkRange_of_lt {s : State} {a n : Nat} {x y : Result} (h : s.params.pramBytes < a + n) :
    (if s.inRange a n then x else y) = y :=
  if_neg (by rw [(inRange_false s a n).mpr h]; exact Bool.false_ne_true)

/-- The checks of a datagram pass and its bytes are read: the range, then CorruptFraming, then the MemRead (rules R92, R93). -/
theorem readDatagram_of_checks {s : State} {a n m : Nat} {d : List Byte} {x y : Result} {k : List Byte → Result}
    (hin : a + n ≤ s.params.pramBytes) (hlong : 8 ≤ n) (hread : s.pram.readBytes a m = some d) :
    (if s.inRange a n then if n < 8 then x else s.memRead a m k else y) = k d := by
  rw [checkRange_of_le hin, if_neg (not_lt.mpr hlong), memRead_some hread]

end Sys2Proof.Machine

namespace Sys2Proof.Proofs

open Sys2Proof.Machine

/-- Settles O22: the range check, then the CRC of what is read. -/
theorem ckCrcFollowsItsRule : Obligations.CkCrcFollowsItsRule :=
  ⟨rfl, fun _ => ⟨checkRange_of_lt, fun _ hin hread => (checkRange_of_le hin).trans (memRead_some hread _)⟩⟩

/-- Settles O23: the two checks in their order, then a header before the payload that is read. -/
theorem ckEncFollowsItsRule : Obligations.CkEncFollowsItsRule := by
  refine ⟨rfl, fun s => ⟨fun hlong => if_pos hlong, fun hmss hout => ?_, fun p hmss hin hread => ?_⟩⟩
  · exact (if_neg (not_lt.mpr hmss)).trans (checkRange_of_lt hout)
  · refine ⟨(s.writeHeader s.arg1.toNat s.arg0 (digest s.arg0 p)).pram, ?_, readBytes_writeHeader s _ _ _ _ p hread,
      fun a ha => ?_⟩
    · exact (if_neg (not_lt.mpr hmss)).trans <| (checkRange_of_le hin).trans (memRead_some hread _)
    · exact read?_writeHeader_outside s _ a _ _ ha

/-- Settles O24: the range check, the framing check, then the header that is read. -/
theorem ckDecFollowsItsRule : Obligations.CkDecFollowsItsRule := by
  refine ⟨rfl, fun s => ⟨checkRange_of_lt, fun hin hshort => ?_, fun h hin hlong hread => ?_⟩⟩
  · exact (checkRange_of_le hin).trans (if_pos hshort)
  · have hcsum : (h.drop 4).take 4 = h.drop 4 := List.take_of_length_le (by simp [Memory.length_readBytes hread])
    rw [← hcsum]
    exact readDatagram_of_checks hin hlong hread

/-- Settles O25: the range check, the framing check, then the comparison of the digest with the checksum that is read. -/
theorem ckVfyFollowsItsRule : Obligations.CkVfyFollowsItsRule := by
  refine ⟨rfl, fun s => ⟨checkRange_of_lt, fun hin hshort => ?_, ?_⟩⟩
  · exact (checkRange_of_le hin).trans (if_pos hshort)
  · rintro d seq csum c hin hlong hread rfl rfl rfl
    refine ⟨fun heq => ?_, fun hne => ?_⟩
    · exact (readDatagram_of_checks hin hlong hread).trans (if_pos (beq_iff_eq.mpr heq))
    · exact (readDatagram_of_checks hin hlong hread).trans (if_neg (beq_iff_eq.not.mpr hne))

end Sys2Proof.Proofs
end

section
/-! SUPPORT. The tick step (rules R99 to R102): what it does to the whole state, and what ticks in a row do to one entry. -/

namespace Sys2Proof.Machine

/-! ## The entries a tick asks about -/

/-- Below its end the saturating increment is the increment. -/
theorem saturatingInc_ofNat {n : Nat} (h : n < 0xFFFF) : saturatingInc (BitVec.ofNat 16 n) = BitVec.ofNat 16 (n + 1) := by
  have hmod : n % 65536 = n := Nat.mod_eq_of_lt (by omega)
  simp [saturatingInc, hmod, Nat.min_eq_left (show n + 1 ≤ 65535 by omega)]

theorem ticking_iff {s : State} : s.ticking ↔ s.timersRun = true := by
  cases h : s.trkState <;> simp [State.ticking, State.timersRun, h]

/-- Timers stand still in DONE and FAILED (rule R100). -/
theorem timersRun_eq_false {s : State} (h : s.trkState = .txDone ∨ s.trkState = .txFailed) : s.timersRun = false := by
  rcases h with h | h <;> rw [State.timersRun, h]

theorem expires_eq (timeout : BitVec 16) (e : Entry) :
    e.expires timeout = (e.valid && decide (timeout.toNat ≤ min (e.age.toNat + 1) 0xFFFF)) := by
  rw [Entry.expires, toNat_saturatingInc]

theorem atCeiling_eq (retry : BitVec 16) (e : Entry) :
    e.atCeiling retry = decide (retry ≠ 0 ∧ retry.toNat ≤ e.retries.toNat) := by
  rw [Bool.eq_iff_iff]
  simp [Entry.atCeiling]

theorem wearsOut_eq (s : State) (e : Entry) : s.wearsOut e = e.exhausts s.timeout s.retry := by
  rw [State.wearsOut, Entry.exhausts, expires_eq, atCeiling_eq]

theorem asksRetx_eq (s : State) (e : Entry) : s.asksRetx e = e.raises s.timeout s.retry := by
  rw [State.asksRetx, Entry.raises, expires_eq, atCeiling_eq, Bool.eq_iff_iff]
  simp

theorem tickRaised_eq {s : State} (h : s.ticking) : s.tickRaised = s.trk.countP s.asksRetx := by
  rw [State.tickRaised, if_pos (ticking_iff.mp h), funext (asksRetx_eq s)]

theorem tickExhausted_eq {s : State} (h : s.ticking) : s.tickExhausted = (s.trk.filter s.wearsOut).map (·.seq) := by
  rw [State.tickExhausted, if_pos (ticking_iff.mp h), funext (wearsOut_eq s)]

theorem tickExhausted_eq_nil {s : State} (h : s.ticking) : s.tickExhausted = [] ↔ s.trk.any s.wearsOut = false := by
  simp [tickExhausted_eq h]

/-! ## The whole step -/

/-- What a tick step does while timers run. -/
theorem tickStep_of_ticking {s : State} (h : s.ticking) :
    (s.trk.any s.wearsOut = false ∧ s.tickStep = s.tickScan) ∨
    (∃ x xs, s.tickExhausted = x :: xs ∧ s.trk.any s.wearsOut = true ∧
      s.tickStep = State.irq .txFailed { s.tickScan with trkState := .txFailed, failSeq := lowestSeq x xs }) := by
  rcases tickStep_cases s with ⟨hnil, ht⟩ | ⟨x, xs, hcons, ht⟩
  · exact .inl ⟨(tickExhausted_eq_nil h).mp hnil, ht⟩
  · refine .inr ⟨x, xs, hcons, ?_, ht⟩
    rw [← Bool.not_eq_false, ← tickExhausted_eq_nil h, hcons]
    exact List.cons_ne_nil x xs

theorem tickRaised_of_stopped {s : State} (h : s.timersRun = false) : s.tickRaised = 0 := by
  rw [State.tickRaised, h]; rfl

/-- With the timers standing still a tick advances TIME alone (rule R100). -/
theorem tickStep_of_stopped {s : State} (h : s.timersRun = false) : s.tickStep = { s with time := s.time + 1 } := by
  have hexhausted : s.tickExhausted = [] := by rw [State.tickExhausted, h]; rfl
  rw [State.tickStep, hexhausted]
  simp [State.tickScan, h, tickRaised_of_stopped h]

/-- The scan while timers run: the requests raised are those of `asksRetx` (rule R99). -/
theorem tickScan_of_ticking {s : State} (h : s.ticking) :
    s.tickScan = { s with
      time := s.time + 1
      trk := s.trk.map (·.tick s.timeout s.retry)
      cntRetx := s.cntRetx + BitVec.ofNat 32 (s.trk.countP s.asksRetx)
      irqStatus := s.irqStatus ||| (if s.trk.any s.asksRetx then 0x04 else 0) } := by
  have hraised : s.trk.countP s.asksRetx = 0 ↔ s.trk.any s.asksRetx = false := by simp [List.countP_eq_zero]
  have hset : (if s.trk.countP s.asksRetx = 0 then s.irqStatus else s.irqStatus ||| IrqBit.retxReq.mask) =
      s.irqStatus ||| (if s.trk.any s.asksRetx then 0x04 else 0) := by
    cases hany : s.trk.any s.asksRetx with
    | true => rw [if_neg (by simp [hraised, hany]), if_pos rfl]; rfl
    | false => rw [if_pos (hraised.mpr hany), if_neg nofun]; exact BitVec.or_zero.symm
  rw [State.tickScan, tickRaised_eq h, if_pos (ticking_iff.mp h), hset]

/-- A tick that exhausts an entry enters FAILED on the lowest number exhausted (rules R38, R99, R100). -/
theorem tickStep_of_wearsOut {s : State} (h : s.ticking) (hany : s.trk.any s.wearsOut = true) :
    s.tickStep.trkState = .txFailed ∧
    (∃ e ∈ s.trk, s.wearsOut e = true ∧ e.seq = s.tickStep.failSeq) ∧
    (∀ e ∈ s.trk, s.wearsOut e = true → s.tickStep.failSeq.toNat ≤ e.seq.toNat) ∧
    s.tickStep.irqStatus.getLsbD 5 = true := by
  rcases tickStep_of_ticking h with ⟨hnone, -⟩ | ⟨x, xs, hcons, -, ht⟩
  · rw [hany] at hnone; nomatch hnone
  · have hmem (y : Word) : y ∈ x :: xs ↔ ∃ e ∈ s.trk, s.wearsOut e = true ∧ e.seq = y := by
      rw [← hcons, tickExhausted_eq h]
      simp [and_assoc]
    rw [ht]
    refine ⟨rfl, (hmem _).mp (lowestSeq_mem x xs), fun e he hw => lowestSeq_le x xs _ ((hmem _).mpr ⟨e, he, hw, rfl⟩), ?_⟩
    simp [State.irq, IrqBit.mask]

/-- A tick that exhausts no entry leaves TRK.state and FAIL_SEQ (rule R100). -/
theorem tickStep_of_none {s : State} (h : s.ticking) (hnone : s.trk.any s.wearsOut = false) :
    s.tickStep.trkState = s.trkState ∧ s.tickStep.failSeq = s.failSeq := by
  rcases tickStep_of_ticking h with ⟨-, ht⟩ | ⟨x, xs, -, hany, -⟩
  · rw [ht]; exact ⟨rfl, rfl⟩
  · rw [hnone] at hany; nomatch hany

/-- A tick changes TRK.state only by exhausting an entry (rules R94, R100). -/
theorem tickStep_trkState {s : State} (hchange : s.tickStep.trkState ≠ s.trkState) :
    s.ticking ∧ s.trk.any s.wearsOut = true := by
  cases hrun : s.timersRun with
  | false => exact absurd (by rw [tickStep_of_stopped hrun]) hchange
  | true =>
    have h := ticking_iff.mpr hrun
    cases hany : s.trk.any s.wearsOut with
    | false => exact absurd (tickStep_of_none h hany).1 hchange
    | true => exact ⟨h, rfl⟩

/-- A tick enters FAILED exactly when it exhausts an entry (rules R99, R102). -/
theorem enters_failed_iff (s : State) :
    s.tickExhausted ≠ [] ↔ s.trkState ≠ .txFailed ∧ s.tickStep.trkState = .txFailed := by
  rcases tickStep_cases s with ⟨hnil, ht⟩ | ⟨x, xs, hcons, ht⟩
  · have hkeep : s.tickStep.trkState = s.trkState := by rw [ht]; rfl
    simp [hnil, hkeep]
  · have hrun : s.trkState ≠ .txFailed := fun hfailed => by
      rw [State.tickExhausted, timersRun_eq_false (.inr hfailed)] at hcons
      nomatch hcons
    exact ⟨fun _ => ⟨hrun, by rw [ht]; rfl⟩, fun _ => by rw [hcons]; exact List.cons_ne_nil x xs⟩

/-- The prologue before a tick step is one after it: the step reads no result register (rules R78, R102). -/
theorem tickStep_prologue (s : State) : s.prologue.tickStep = s.tickStep.prologue := by
  have hsame : s.prologue.tickExhausted = s.tickExhausted := rfl
  rw [State.tickStep, State.tickStep, hsame]
  cases s.tickExhausted <;> rfl

/-! ## One entry -/

section
variable {timeout retry : BitVec 16} {e : Entry}

/-- An entry that raises no request only ages (rule R99). -/
theorem tick_of_not_raises (hvalid : e.valid = true) (h : e.raises timeout retry = false) :
    e.tick timeout retry = { e with age := saturatingInc e.age } := by
  rw [Entry.tick, if_neg (by simp [h]), if_pos hvalid]

theorem tick_of_young (hvalid : e.valid = true) (h : (saturatingInc e.age).toNat < timeout.toNat) :
    e.tick timeout retry = { e with age := saturatingInc e.age } :=
  tick_of_not_raises hvalid (by simp [Entry.raises, Entry.expires, h])

theorem tick_of_ceiling (hvalid : e.valid = true) (h : e.atCeiling retry = true) :
    e.tick timeout retry = { e with age := saturatingInc e.age } :=
  tick_of_not_raises hvalid (by simp [Entry.raises, h])

theorem tick_of_raises (hvalid : e.valid = true) (hage : timeout.toNat ≤ (saturatingInc e.age).toNat)
    (h : retry = 0 ∨ e.retries.toNat < retry.toNat) :
    e.tick timeout retry = { e with retries := saturatingInc e.retries, age := 0, rq := true } := by
  have hbelow : e.atCeiling retry = false := by
    rw [atCeiling_eq, decide_eq_false_iff_not]
    exact fun hceil => h.elim hceil.1 hceil.2.not_gt
  exact if_pos (by simp [Entry.raises, Entry.expires, hvalid, hage, hbelow])

/-- The entry at an index after the scan. -/
theorem getD_map_tick (timeout retry : BitVec 16) (l : List Entry) (i : Nat) :
    (l.map (·.tick timeout retry)).getD i Entry.empty = (l.getD i Entry.empty).tick timeout retry := by
  have hempty : Entry.empty.tick timeout retry = Entry.empty := tick_invalid timeout retry rfl
  simpa only [hempty] using List.getD_map (l := l) (n := i) (d := Entry.empty) (f := Entry.tick timeout retry)

/-! ## Ticks in a row -/

/-- Through the first TIMEOUT - 1 ticks an entry only ages (rule R99). -/
theorem tick_iterate_young (hvalid : e.valid = true) (hage : e.age = 0) {n : Nat} (hn : n < timeout.toNat) :
    (Entry.tick timeout retry)^[n] e = { e with age := BitVec.ofNat 16 n } := by
  induction n with
  | zero => exact congrArg (fun a => { e with age := a }) hage
  | succ n ih =>
    have hinc := saturatingInc_ofNat (n := n) (by omega)
    have hyoung : (saturatingInc (BitVec.ofNat 16 n)).toNat < timeout.toNat := by
      rw [hinc, BitVec.toNat_ofNat, Nat.mod_eq_of_lt] <;> omega
    rw [Function.iterate_succ_apply', ih (Nat.lt_of_succ_lt hn), tick_of_young (by exact hvalid) hyoung, hinc]

/-- The TIMEOUT-th tick re-arms an entry below the ceiling (rule R99). -/
theorem tick_iterate_timeout (hvalid : e.valid = true) (hage : e.age = 0) (hpos : 1 ≤ timeout.toNat)
    (hbelow : retry = 0 ∨ e.retries.toNat < retry.toNat) :
    (Entry.tick timeout retry)^[timeout.toNat] e = { e with retries := saturatingInc e.retries, age := 0, rq := true } := by
  obtain ⟨n, hn⟩ := Nat.exists_eq_add_of_le' hpos
  have hreach : timeout.toNat ≤ (saturatingInc (BitVec.ofNat 16 n)).toNat := by
    rw [saturatingInc_ofNat (by omega), BitVec.toNat_ofNat, Nat.mod_eq_of_lt] <;> omega
  rw [hn, Function.iterate_succ_apply', tick_iterate_young hvalid hage (by omega)]
  exact tick_of_raises hvalid hreach hbelow

/-- After j periods of TIMEOUT ticks, as many as RETRY allows, an entry has asked j times and is at age 0 (rule R100). -/
theorem tick_iterate_periods (hvalid : e.valid = true) (hage : e.age = 0) (hretries : e.retries = 0) (hpos : 1 ≤ timeout.toNat)
    {j : Nat} (hj : j ≤ retry.toNat) :
    ∃ q, (Entry.tick timeout retry)^[timeout.toNat * j] e = { e with retries := BitVec.ofNat 16 j, rq := q } := by
  induction j with
  | zero => exact ⟨e.rq, congrArg (fun r => { e with retries := r }) hretries⟩
  | succ j ih =>
    obtain ⟨q, hq⟩ := ih (Nat.le_of_succ_le hj)
    have hbelow : (BitVec.ofNat 16 j).toNat < retry.toNat := by rw [BitVec.toNat_ofNat, Nat.mod_eq_of_lt] <;> omega
    refine ⟨true, ?_⟩
    rw [Nat.mul_succ, Nat.add_comm, Function.iterate_add_apply, hq,
      tick_iterate_timeout (by exact hvalid) (by exact hage) hpos (.inr hbelow), saturatingInc_ofNat (by omega), ← hage]

/-- Any number of ticks before exhaustion: whole periods give requests, the rest gives the age. -/
theorem tick_iterate (hvalid : e.valid = true) (hage : e.age = 0) (hretries : e.retries = 0) (hpos : 1 ≤ timeout.toNat)
    {n : Nat} (hn : n < (retry.toNat + 1) * timeout.toNat) :
    ∃ q, (Entry.tick timeout retry)^[n] e =
      { e with age := BitVec.ofNat 16 (n % timeout.toNat), retries := BitVec.ofNat 16 (n / timeout.toNat), rq := q } := by
  have hperiods : n / timeout.toNat ≤ retry.toNat := Nat.le_of_lt_succ ((Nat.div_lt_iff_lt_mul hpos).mpr hn)
  obtain ⟨q, hq⟩ := tick_iterate_periods hvalid hage hretries hpos hperiods
  refine ⟨q, ?_⟩
  conv_lhs => rw [← Nat.mod_add_div n timeout.toNat, Function.iterate_add_apply, hq]
  exact tick_iterate_young (e := { e with retries := BitVec.ofNat 16 (n / timeout.toNat), rq := q }) hvalid hage
    (Nat.mod_lt _ hpos)

end

/-- A tick while timers run takes each entry through the scan. -/
theorem tickStep_entry {s : State} (h : s.ticking) (i : Nat) :
    s.tickStep.trk.getD i Entry.empty = (s.trk.getD i Entry.empty).tick s.timeout s.retry := by
  rw [tickStep_frame, if_pos (ticking_iff.mp h)]
  exact getD_map_tick _ _ _ _

theorem tickStep_iterate_setup (s : State) (n : Nat) : (State.tickStep^[n] s).setup = s.setup := by
  induction n with
  | zero => rfl
  | succ n ih => rw [Function.iterate_succ_apply', tickStep_setup, ih]

theorem tickStep_iterate_entry {s : State} {n : Nat} (h : ∀ k, k < n → (State.tickStep^[k] s).ticking) (i : Nat) :
    (State.tickStep^[n] s).trk.getD i Entry.empty = (Entry.tick s.timeout s.retry)^[n] (s.trk.getD i Entry.empty) := by
  induction n with
  | zero => rfl
  | succ n ih =>
    have htime : (State.tickStep^[n] s).timeout = s.timeout := congrArg Setup.timeout (tickStep_iterate_setup s n)
    have hretry : (State.tickStep^[n] s).retry = s.retry := congrArg Setup.retry (tickStep_iterate_setup s n)
    rw [Function.iterate_succ_apply', Function.iterate_succ_apply', tickStep_entry (h n n.lt_succ_self), htime, hretry,
      ih fun k hk => h k (Nat.lt_succ_of_lt hk)]

theorem wearsOut_iterate (s : State) (n : Nat) : (State.tickStep^[n] s).wearsOut = s.wearsOut := by
  have hsetup := tickStep_iterate_setup s n
  have htime : (State.tickStep^[n] s).timeout = s.timeout := congrArg Setup.timeout hsetup
  have hretry : (State.tickStep^[n] s).retry = s.retry := congrArg Setup.retry hsetup
  funext e
  rw [State.wearsOut, State.wearsOut, htime, hretry]

/-- The last of r + 1 periods of t ticks ends where r periods and t - 1 ticks are over. -/
theorem period_end_iff {n r t : Nat} (hpos : 1 ≤ t) : n % t + 1 = t ∧ n / t = r ↔ n + 1 = (r + 1) * t := by
  have hdiv := Nat.mod_add_div n t
  rw [Nat.succ_mul, Nat.mul_comm]
  constructor
  · rintro ⟨hend, rfl⟩
    omega
  · intro hend
    have hr : n / t = r := (Nat.div_eq_iff hpos).mpr (by rw [Nat.mul_comm]; omega)
    rw [hr] at hdiv
    exact ⟨by omega, hr⟩

/-- Among the ticks up to the (RETRY + 1) x TIMEOUT-th, that one alone exhausts the entry (rule R100). -/
theorem wearsOut_tick_iterate {s : State} {e : Entry} {n : Nat} (hvalid : e.valid = true) (hage : e.age = 0)
    (hretries : e.retries = 0) (hpos : 1 ≤ s.timeout.toNat) (hretry : s.retry ≠ 0)
    (hn : n < (s.retry.toNat + 1) * s.timeout.toNat) :
    s.wearsOut ((Entry.tick s.timeout s.retry)^[n] e) = true ↔ n + 1 = (s.retry.toNat + 1) * s.timeout.toNat := by
  obtain ⟨q, hq⟩ := tick_iterate hvalid hage hretries hpos hn
  have hmod : n % s.timeout.toNat < s.timeout.toNat := Nat.mod_lt _ hpos
  have hage : (BitVec.ofNat 16 (n % s.timeout.toNat)).toNat = n % s.timeout.toNat := by
    rw [BitVec.toNat_ofNat, Nat.mod_eq_of_lt]; omega
  have hdiv : n / s.timeout.toNat < s.retry.toNat + 1 := (Nat.div_lt_iff_lt_mul hpos).mpr hn
  have hcount : (BitVec.ofNat 16 (n / s.timeout.toNat)).toNat = n / s.timeout.toNat := by
    rw [BitVec.toNat_ofNat, Nat.mod_eq_of_lt]; omega
  have hmin : min (n % s.timeout.toNat + 1) 0xFFFF = n % s.timeout.toNat + 1 := Nat.min_eq_left (by omega)
  rw [hq, ← period_end_iff hpos]
  simp only [State.wearsOut, hage, hcount, hmin, hvalid, hretry, Bool.true_and, Bool.and_eq_true, decide_eq_true_eq, ne_eq,
    not_false_eq_true, true_and]
  omega

theorem mem_of_getD_valid {l : List Entry} {i : Nat} (h : (l.getD i Entry.empty).valid = true) : l.getD i Entry.empty ∈ l := by
  by_cases hi : i < l.length
  · simp [hi]
  · simp [not_lt.mp hi, Entry.empty] at h

end Sys2Proof.Machine

namespace Sys2Proof.Proofs

open Sys2Proof.Machine

/-- Settles O29: the scan takes each entry by its case, and the two kinds of tick differ in FAILED and FAIL_SEQ only. -/
theorem tickStepAgesEveryEntry : Obligations.TickStepAgesEveryEntry := by
  refine ⟨fun s hstop => ⟨tickStep_of_stopped (timersRun_eq_false hstop), tickRaised_of_stopped (timersRun_eq_false hstop)⟩,
    fun s h => ⟨tickRaised_eq h, s.trk.map (·.tick s.timeout s.retry), s.tickStep.failSeq, ?_,
      fun hnone => (tickStep_of_none h hnone).2, List.length_map _, ?_⟩⟩
  · rcases tickStep_of_ticking h with ⟨hnone, ht⟩ | ⟨x, xs, -, hany, ht⟩
    · rw [ht, tickScan_of_ticking h]
      simp [hnone]
    · rw [ht, tickScan_of_ticking h]
      simp [hany, State.irq, IrqBit.mask]
  · rintro i - e e' a r rfl rfl rfl rfl
    rw [getD_map_tick]
    refine ⟨tick_invalid _ _, tick_of_young, fun hvalid _ hretry hceil => tick_of_ceiling hvalid ?_, tick_of_raises⟩
    rw [atCeiling_eq]
    exact decide_eq_true ⟨hretry, hceil⟩

/-- Settles O30: the rule's exhausted entries are those of `wearsOut`, and `lowestSeq` is one of them and the lowest. -/
theorem tickFailsOnTheLowestExhausted : Obligations.TickFailsOnTheLowestExhausted := by
  intro s h exhausted hiff
  have hex (e : Entry) : exhausted e ↔ e ∈ s.trk ∧ s.wearsOut e = true := by
    rw [hiff]
    simp [State.wearsOut, and_assoc]
  have hany : (∃ e, exhausted e) ↔ s.trk.any s.wearsOut = true := by simp [hex, List.any_eq_true]
  rw [hany]
  refine ⟨fun hw => ?_, fun hnone => tickStep_of_none h (Bool.eq_false_iff.mpr hnone)⟩
  obtain ⟨hfailed, ⟨e, he, hwe, hseq⟩, hlow, hirq⟩ := tickStep_of_wearsOut h hw
  exact ⟨hfailed, ⟨e, (hex e).mpr ⟨he, hwe⟩, hseq⟩, fun e he => hlow e ((hex e).mp he).1 ((hex e).mp he).2, hirq⟩

/-- Settles O31: the ticks act on each entry alone, TIMEOUT - 1 of them age it and the next re-arms it. -/
theorem entriesExpireAtTheTimeoutthTick : Obligations.EntriesExpireAtTheTimeoutthTick := by
  rintro s i n e - rfl hvalid hage hpos hbelow hticking
  rw [tickStep_iterate_entry hticking]
  refine ⟨tick_iterate_young hvalid hage, ?_⟩
  rintro rfl
  exact tick_iterate_timeout hvalid hage hpos hbelow

/-- Settles O32: RETRY periods of TIMEOUT ticks re-arm the entry, and the end of one more exhausts it. -/
theorem exhaustionComesAfterRetryPlusOneTimeouts : Obligations.ExhaustionComesAfterRetryPlusOneTimeouts := by
  rintro s i n e - rfl hvalid hage hretries hpos hretry hticking
  have hentry := tickStep_iterate_entry (fun k hk => hticking k (Nat.le_of_lt hk)) i
  have hworn : n < (s.retry.toNat + 1) * s.timeout.toNat →
      ((State.tickStep^[n] s).wearsOut ((State.tickStep^[n] s).trk.getD i Entry.empty) = true ↔
        n + 1 = (s.retry.toNat + 1) * s.timeout.toNat) := by
    rw [hentry, wearsOut_iterate]
    exact wearsOut_tick_iterate hvalid hage hretries hpos hretry
  refine ⟨fun hn => Bool.eq_false_iff.mpr (mt (hworn (by omega)).mp hn.ne), fun hn => ?_⟩
  obtain ⟨q, hq⟩ := tick_iterate hvalid hage hretries hpos (n := n) (retry := s.retry) (by omega)
  rw [((period_end_iff hpos).mpr hn).2, ← hentry] at hq
  have hlast := (hworn (by omega)).mpr hn
  have hmem := mem_of_getD_valid (l := (State.tickStep^[n] s).trk) (i := i) (by rw [hq]; exact hvalid)
  obtain ⟨hfailed, -, hlow, -⟩ := tickStep_of_wearsOut (hticking n le_rfl) (List.any_eq_true.mpr ⟨_, hmem, hlast⟩)
  rw [Function.iterate_succ_apply']
  refine ⟨hlast, ?_, hfailed, (hlow _ hmem hlast).trans_eq ?_⟩
  · rw [hq]
    exact BitVec.ofNat_toNat ..
  · rw [hq]

/-- Settles O33: the count and the list of the tick step are what the command reports. -/
theorem txTickReportsItsTickStep : Obligations.TxTickReportsItsTickStep := by
  refine ⟨rfl, fun s => ⟨s.tickRaised, if s.tickExhausted = [] then 0 else 1, ?_, tickRaised_eq,
    fun hstop => tickRaised_of_stopped (timersRun_eq_false hstop), ?_, ?_⟩⟩
  · show finish .ok (s.prologue.tickStep.setRes _ _ _) = _
    rw [tickStep_prologue]
    rfl
  · split
    · exact .inl rfl
    · exact .inr rfl
  · rw [← enters_failed_iff]
    split <;> simp [*]

/-- Settles O6: a tick touches only the tracker, TIME and IRQ_STATUS, and a legal build meets rule R6. -/
theorem stepTicksOrIdlesOrRefusesTheBuild : Obligations.StepTicksOrIdlesOrRefusesTheBuild := by
  refine fun s => ⟨fun rest hlegal ha => ?_, fun hlegal ha => ?_, fun hbuild => if_neg fun hlegal => ?_⟩
  · have hframe := tickStep_frame { s with agenda := rest }
    refine ⟨State.tickStep { s with agenda := rest }, ?_, rfl, ?_⟩
    · rw [step, if_pos hlegal, ha]; rfl
    · rw [hframe]
      exact ⟨rfl, rfl, rfl, rfl, rfl, rfl, rfl, rfl⟩
  · rw [step, if_pos hlegal, ha]
  · obtain ⟨-, -, -, -, -, hdlv, -⟩ := s.params.legal_iff.mp hlegal
    exact hbuild.not_ge hdlv

end Sys2Proof.Proofs
end

section
/-! SUPPORT. The commands of the tracker, one by one (rules R97, R98, R103 to R105). -/

namespace Sys2Proof.Machine

/-! ## Searches of the table -/

/-- A search finds the first entry it asks for. -/
theorem findIdx?_eq_some_of_getD {l : List Entry} {p : Entry → Bool} {i : Nat} (hi : i < l.length)
    (hp : p (l.getD i Entry.empty) = true) (hfirst : ∀ j, j < i → p (l.getD j Entry.empty) = false) :
    l.findIdx? p = some i := by
  refine List.findIdx?_eq_some_iff_getElem.mpr ⟨hi, by simpa [hi] using hp, fun j hj => ?_⟩
  have hjl : j < l.length := hj.trans hi
  simpa [hjl] using hfirst j hj

theorem holds_iff {seq : Word} {e : Entry} : e.holds seq = true ↔ e.valid = true ∧ e.seq = seq := by
  simp [Entry.holds]

/-- The first valid entry with the number is the one TX.ACK and TX.QRY find (rules R98, R104). -/
theorem findIdx?_holds {l : List Entry} {i : Nat} {seq : Word} (hi : i < l.length)
    (hvalid : (l.getD i Entry.empty).valid = true) (hseq : (l.getD i Entry.empty).seq = seq)
    (hfirst : ∀ j, j < i → (l.getD j Entry.empty).valid = true → (l.getD j Entry.empty).seq ≠ seq) :
    l.findIdx? (·.holds seq) = some i :=
  findIdx?_eq_some_of_getD hi (holds_iff.mpr ⟨hvalid, hseq⟩) fun j hj =>
    Bool.eq_false_iff.mpr fun hh => hfirst j hj (holds_iff.mp hh).1 (holds_iff.mp hh).2

/-- No entry holds a number that is not pending. -/
theorem holds_eq_false {s : State} {seq : Word} (h : ¬ s.pending seq) : ∀ e ∈ s.trk, e.holds seq = false :=
  fun e he => Bool.eq_false_iff.mpr fun hh => h ⟨e, he, holds_iff.mp hh⟩

/-! ## TX.SEND -/

theorem exec_txSend_of_open {s : State} (h : s.trkState = .txOpen) : exec .txSend s = s.prologue.sendOpen := by
  simp only [exec, execTxSend, State.prologue_trkState, h]

theorem isSentinel_eq (s : State) (p : List Byte) : s.isSentinel p = decide (p = s.sentinel) := beq_eq_decide p s.sentinel

/-! ## TX.ACK -/

theorem retire_of_last {s : State} {i : Nat} (h : s.trkState = .txClosing ∧ (s.trk.set i Entry.empty).countP (·.valid) = 0) :
    s.retire i =
      { s with trk := s.trk.set i Entry.empty, trkState := .txDone, irqStatus := s.irqStatus ||| 0x18 } := by
  have hirq : s.irqStatus ||| 0x08 ||| 0x10 = s.irqStatus ||| 0x18 := BitVec.or_assoc ..
  rw [← hirq]
  exact if_pos h

theorem retire_of_not_last {s : State} {i : Nat}
    (h : ¬ (s.trkState = .txClosing ∧ (s.trk.set i Entry.empty).countP (·.valid) = 0)) :
    s.retire i = { s with trk := s.trk.set i Entry.empty, irqStatus := s.irqStatus ||| 0x08 } :=
  if_neg h

/-- The checks of TX.ACK pass and its four bytes are read (rule R98). -/
theorem readAck_of_checks {s : State} {d : List Byte} {x y : Result} {k : List Byte → Result}
    (hin : s.baseArg + 4 ≤ s.params.pramBytes) (hlen : s.lenArg = 4) (hread : s.pram.readBytes s.baseArg 4 = some d) :
    (if s.inRange s.baseArg s.lenArg then if s.lenArg = 4 then s.memRead s.baseArg 4 k else x else y) = k d := by
  rw [checkRange_of_le (hlen.symm ▸ hin), if_pos hlen, memRead_some hread]

/-- What TX.ACK does with the number it reads where the checks pass. -/
theorem exec_txAck_found {s : State} {d : List Byte} {i : Nat} (hin : s.arg1.toNat + 4 ≤ s.params.pramBytes)
    (hlen : s.arg2.toNat = 4) (hread : s.pram.readBytes s.arg1.toNat 4 = some d)
    (hfind : s.trk.findIdx? (·.holds (wordBE32 d)) = some i) :
    exec .txAck s = .next (((s.prologue.retire i).setRes (wordBE32 d) 1 0).complete .ok) := by
  refine (readAck_of_checks (s := s.prologue) hin hlen hread).trans ?_
  simp only [State.prologue_trk, hfind]
  rfl

theorem exec_txAck_stale {s : State} {d : List Byte} (hin : s.arg1.toNat + 4 ≤ s.params.pramBytes)
    (hlen : s.arg2.toNat = 4) (hread : s.pram.readBytes s.arg1.toNat 4 = some d) (hnot : ¬ s.pending (wordBE32 d)) :
    exec .txAck s = .next (s.ends .staleAck (wordBE32 d) 0 0) := by
  have hnone : s.trk.findIdx? (·.holds (wordBE32 d)) = none := List.findIdx?_eq_none_iff.mpr (holds_eq_false hnot)
  refine (readAck_of_checks (s := s.prologue) hin hlen hread).trans ?_
  simp only [State.prologue_trk, hnone]
  rfl

/-! ## TX.RETX -/

theorem requested_iff {e : Entry} : e.requested = true ↔ e.valid = true ∧ e.rq = true := by
  simp [Entry.requested]

/-- The only request below all others is the one of the lowest number (rule R103). -/
theorem lowestSeq_eq_of_request {l : List Entry} {i : Nat} {x : Word} {xs : List Word}
    (hcons : (l.filter (·.requested)).map (·.seq) = x :: xs) (hi : i < l.length)
    (hreq : (l.getD i Entry.empty).requested = true)
    (hlow : ∀ j, j < l.length → j ≠ i → (l.getD j Entry.empty).requested = true →
      (l.getD i Entry.empty).seq.toNat < (l.getD j Entry.empty).seq.toNat) :
    lowestSeq x xs = (l.getD i Entry.empty).seq := by
  have hmem (y : Word) : y ∈ x :: xs ↔
      ∃ j, j < l.length ∧ (l.getD j Entry.empty).requested = true ∧ (l.getD j Entry.empty).seq = y := by
    rw [← hcons, List.mem_map]
    constructor
    · rintro ⟨e, he, hseq⟩
      obtain ⟨hel, hr⟩ := List.mem_filter.mp he
      obtain ⟨j, hj, rfl⟩ := List.getElem_of_mem hel
      exact ⟨j, hj, by simpa [hj] using hr, by simpa [hj] using hseq⟩
    · rintro ⟨j, hj, hr, hseq⟩
      refine ⟨l.getD j Entry.empty, List.mem_filter.mpr ⟨?_, hr⟩, hseq⟩
      simp [hj]
  obtain ⟨j, hj, hreqj, hseq⟩ := (hmem _).mp (lowestSeq_mem x xs)
  by_cases hji : j = i
  · rw [← hseq, hji]
  · have hle := lowestSeq_le x xs _ ((hmem _).mpr ⟨i, hi, hreq, rfl⟩)
    rw [← hseq] at hle
    exact absurd hle (hlow j hj hji hreqj).not_ge

/-! ## TX.QRY -/

theorem queryBits_eq (e : Entry) : e.queryBits = BitVec.ofNat 32 (1 + 2 * e.rq.toNat + 4 * e.sent.toNat) := by
  cases hrq : e.rq <;> cases hsent : e.sent <;> simp [Entry.queryBits, hrq, hsent]

end Sys2Proof.Machine

namespace Sys2Proof.Proofs

open Sys2Proof.Machine

/-- Settles O26: each check of `sendOpen` in its place, the earlier ones passed. -/
theorem txSendRefusesInCheckOrder : Obligations.TxSendRefusesInCheckOrder := by
  refine fun s => ⟨fun h => ?_, fun h => ?_, fun hopen => ?_⟩
  · simp only [exec, execTxSend, State.prologue_trkState, h]; rfl
  · rcases h with h | h <;> simp only [exec, execTxSend, State.prologue_trkState, h] <;> rfl
  · rw [exec_txSend_of_open hopen]
    refine ⟨fun hlong => if_pos hlong, fun hmss => ?_⟩
    have hlen := not_lt.mpr hmss
    refine ⟨fun hout => (if_neg hlen).trans (checkRange_of_lt hout), fun hin => ⟨fun hlast => ?_, fun hseq hfull => ?_⟩⟩
    · exact (if_neg hlen).trans <| (checkRange_of_le hin).trans (if_pos hlast)
    · exact (if_neg hlen).trans <| (checkRange_of_le hin).trans <| (if_neg hseq).trans (if_pos hfull)

/-- Settles O27: the checks pass, the payload is read, and the packet goes into the lowest free entry. -/
theorem txSendRecordsThePacket : Obligations.TxSendRecordsThePacket := by
  refine ⟨rfl, fun s p i hopen hmss hin hseq hroom hread hi hfree hlow => ?_⟩
  refine ⟨(s.writeHeader s.arg1.toNat s.nextSeq (digest s.nextSeq p)).pram, ?_,
    readBytes_writeHeader s _ _ _ _ p hread, fun a ha => read?_writeHeader_outside s _ a _ _ ha⟩
  have hfind : freeEntry s.prologue.trk = some i := freeEntry_eq_some.mpr ⟨hi, hfree, hlow⟩
  have hsend : s.prologue.sendOpen = finish .ok (s.prologue.sendPacket i p) := by
    refine (if_neg (not_lt.mpr hmss)).trans <| (checkRange_of_le hin).trans <| (if_neg hseq).trans <|
      (if_neg (not_le.mpr hroom)).trans <| (memRead_some hread _).trans ?_
    rw [hfind]
  have hsent : s.prologue.isSentinel p = decide (p = s.sentinel) := isSentinel_eq s p
  rw [exec_txSend_of_open hopen, hsend]
  simp only [State.sendPacket, hsent, decide_eq_true_eq, State.prologue_trkState, hopen]
  rfl

/-- Settles O28: the two checks, then the search for the number that is read, then its retirement. -/
theorem txAckFollowsItsRule : Obligations.TxAckFollowsItsRule := by
  refine ⟨rfl, fun s => ⟨checkRange_of_lt, fun hin hlen => (checkRange_of_le hin).trans (if_neg hlen), ?_⟩⟩
  rintro d seq hin hlen hread rfl
  refine ⟨fun hnot => exec_txAck_stale hin hlen hread hnot, fun i hi hvalid hseq hfirst => ?_⟩
  rw [exec_txAck_found hin hlen hread (findIdx?_holds hi hvalid hseq hfirst)]
  refine ⟨fun hmore => ?_, fun hlast => ?_⟩
  · rw [retire_of_not_last (s := s.prologue) hmore]; rfl
  · rw [retire_of_last (s := s.prologue) hlast]; rfl

/-- Settles O34: the request below all others is the lowest one, which the command takes. -/
theorem txRetxTakesTheLowestRequest : Obligations.TxRetxTakesTheLowestRequest := by
  refine ⟨rfl, fun s => ⟨fun hnone => ?_, ?_⟩⟩
  · have hnil : s.trk.filter (·.requested) = [] := List.filter_eq_nil_iff.mpr fun e he hreq => by
      obtain ⟨hvalid, hrq⟩ := requested_iff.mp hreq
      rw [hnone e he hvalid] at hrq; nomatch hrq
    simp only [exec, execTxRetx, State.prologue_trk, hnil, List.map_nil]
    rfl
  · rintro i e hi rfl hvalid hrq hlow
    have hreq : (s.trk.getD i Entry.empty).requested = true := requested_iff.mpr ⟨hvalid, hrq⟩
    have hother : ∀ j, j < s.trk.length → j ≠ i → (s.trk.getD j Entry.empty).requested = true →
        (s.trk.getD i Entry.empty).seq.toNat < (s.trk.getD j Entry.empty).seq.toNat := fun j hj hji hr =>
      hlow j hj hji (requested_iff.mp hr).1 (requested_iff.mp hr).2
    have hmem : s.trk.getD i Entry.empty ∈ s.trk.filter (·.requested) :=
      List.mem_filter.mpr ⟨mem_of_getD_valid hvalid, hreq⟩
    obtain ⟨x, xs, hcons⟩ := List.exists_cons_of_ne_nil (List.ne_nil_of_mem (List.mem_map_of_mem (f := (·.seq)) hmem))
    have hlowest := lowestSeq_eq_of_request hcons hi hreq hother
    have hfind : s.trk.findIdx? (fun e => e.requested && e.seq == lowestSeq x xs) = some i := by
      refine findIdx?_eq_some_of_getD hi ?_ fun j hj => ?_
      · rw [hlowest, hreq, beq_self_eq_true, Bool.true_and]
      · rw [hlowest, Bool.and_eq_false_imp]
        exact fun hr => beq_eq_false_iff_ne.mpr fun heq => (hother j (hj.trans hi) hj.ne hr).ne (by rw [heq])
    simp only [exec, execTxRetx, State.prologue_trk, hcons, hfind, zeroExtend_eq_ofNat]
    rfl

/-- Settles O35: the search finds the first entry that holds the number, and the flags of RES0 are its bits. -/
theorem txQryFollowsItsRule : Obligations.TxQryFollowsItsRule := by
  refine ⟨rfl, fun s => ⟨fun hnot => ?_, ?_⟩⟩
  · have hnone : s.trk.find? (·.holds s.prologue.seqArg) = none :=
      List.find?_eq_none.mpr fun e he => Bool.eq_false_iff.mp (holds_eq_false hnot e he)
    simp only [exec, execTxQry, State.prologue_trk, hnone]
    rfl
  · rintro i e hi rfl hvalid hseq hfirst
    have hidx : s.trk.findIdx? (·.holds s.prologue.seqArg) = some i := findIdx?_holds hi hvalid hseq hfirst
    have hfind : s.trk.find? (·.holds s.prologue.seqArg) = some (s.trk.getD i Entry.empty) := by
      rw [List.find?_eq_bind_findIdx?_getElem?, hidx]
      simp [hi]
    simp only [exec, execTxQry, State.prologue_trk, hfind, queryBits_eq, zeroExtend_eq_ofNat]
    rfl

/-- Settles O36: a table mapped to empty entries is one of as many empty entries. -/
theorem txRstFollowsItsRule : Obligations.TxRstFollowsItsRule := by
  refine ⟨rfl, fun s => ?_⟩
  rw [← List.map_const']
  rfl

end Sys2Proof.Proofs
end

section
/-! SUPPORT. What a step does to the pending packets: no number comes back (rule R106) and WIN bounds their count (rule R107). -/

namespace Sys2Proof.Machine

/-! ## The table after a step -/

/-- The pending packets, the number the next one gets, and the bound on their count. -/
structure Ledger where
  entries : List Entry
  nextSeq : Word
  win : BitVec 8

def State.ledger (s : State) : Ledger := ⟨s.trk, s.nextSeq, s.win⟩

/-- What a step does to the pending packets: it keeps which they are, records one under NEXT_SEQ, clears an entry, or, under the
condition `reset`, clears them all. -/
inductive TableStep (reset : Prop) (a b : Ledger) : Prop
  | keeps (hid : b.entries.map Entry.identity = a.entries.map Entry.identity) (hnext : b.nextSeq = a.nextSeq)
  | records (j : Nat) (e : Entry) (hentries : b.entries = a.entries.set j e) (hseq : e.seq = a.nextSeq)
      (hnext : b.nextSeq.toNat = a.nextSeq.toNat + 1) (hroom : a.entries.countP (·.valid) < a.win.toNat)
  | clears (j : Nat) (hentries : b.entries = a.entries.set j Entry.empty) (hnext : b.nextSeq = a.nextSeq)
  | resets (hreset : reset) (hnone : b.entries.countP (·.valid) = 0)

/-- The delivery loop leaves the sender alone. -/
@[simp] theorem drain_ledger (s : State) : s.drain.1.ledger = s.ledger := by rw [drain_frame]; rfl

@[simp] theorem store_ledger (s : State) (seq : Word) (p : List Byte) : (s.store seq p).ledger = s.ledger := by
  unfold State.store
  split <;> rfl

theorem TableStep.of_eq {reset : Prop} {a b : Ledger} (h : b = a) : TableStep reset a b :=
  h ▸ .keeps rfl rfl

/-- A tick changes timers and requests only, not which packets are pending (rule R99). -/
theorem tickStep_identity (s : State) : s.tickStep.trk.map Entry.identity = s.trk.map Entry.identity := by
  have htick : ∀ e : Entry, (e.tick s.timeout s.retry).identity = e.identity := fun e => by simp [Entry.identity]
  rw [tickStep_frame]
  cases s.timersRun with
  | true => simp [htick, Function.comp_def]
  | false => rfl

/-- Taking a request changes no packet's identity (rule R103). -/
theorem takeRequest_identity (l : List Entry) (i : Nat) :
    (l.set i { l.getD i Entry.empty with rq := false }).map Entry.identity = l.map Entry.identity := by
  by_cases hi : i < l.length
  · have hid : Entry.identity { l.getD i Entry.empty with rq := false } = (l.map Entry.identity)[i]'(by simpa using hi) := by
      simp [hi, Entry.identity]
    rw [List.map_set, hid, List.set_getElem_self]
  · rw [List.set_eq_of_length_le (not_lt.mp hi)]

theorem Effect.tableStep {i : Instr} {s u : State} (h : Effect i s u) :
    TableStep (i = .txRst ∨ i = .srst) s.ledger u.ledger := by
  cases h with
  | send _ _ hseq hroom =>
    refine .records _ _ rfl rfl ?_ hroom
    show (s.nextSeq + 1).toNat = s.nextSeq.toNat + 1
    bv_omega
  | acknowledge => exact .clears _ (by rw [retire_frame]; rfl) (by rw [retire_frame]; rfl)
  | tick => exact .keeps (tickStep_identity s) (by rw [tickStep_frame]; rfl)
  | takeRequest => exact .keeps (takeRequest_identity _ _) rfl
  | resetSender => exact .resets (.inl rfl) (by simp [State.ledger, State.resetTrk, Entry.empty])
  | resetAll => exact .resets (.inr rfl) (by simp [State.ledger, State.resetBlock, Entry.empty])
  | accept => exact .of_eq (by rw [drain_ledger, store_ledger]; rfl)
  | pop => exact .of_eq (by rw [drain_ledger]; rfl)
  | _ => exact .of_eq rfl

theorem Runs.tableStep {i : Instr} {s t : State} (h : Runs i s t) :
    TableStep (i = .txRst ∨ i = .srst) s.ledger t.ledger := by
  cases h with
  | mk heff => exact heff.tableStep

theorem TableStep.imp {p q : Prop} {a b : Ledger} (h : TableStep p a b) (hpq : p → q) : TableStep q a b := by
  cases h with
  | keeps hid hnext => exact .keeps hid hnext
  | records j e hentries hseq hnext hroom => exact .records j e hentries hseq hnext hroom
  | clears j hentries hnext => exact .clears j hentries hnext
  | resets hreset hnone => exact .resets (hpq hreset) hnone

/-- The word a CMD write runs a command by is that command's encoding (rules R23, R81). -/
theorem executes_of_wrReg {s : State} {w : Word} {i : Instr} {rest : List Event} (ha : s.agenda = wrReg .cmd w :: rest)
    (hdec : decode w = .command i) : s.executes i := by
  rw [State.executes, nextCmdWord_wrReg ha, Proofs.decodeReadsExactlyTheEncodings.2 w i hdec]

/-- The three events that start the sender anew (rules R105, R129, R151). -/
def State.restarts (s : State) : Prop := s.executes .txRst ∨ s.executes .srst ∨ s.powersOn

theorem StepTo.tableStep {s t : State} (h : StepTo s t) : TableStep s.restarts s.ledger t.ledger := by
  cases h with
  | register => exact .keeps (by rw [writeReg_frame]; rfl) (by rw [writeReg_frame]; rfl)
  | command ha hexec =>
    rcases execWord_next hexec with ⟨i, hdec, hrun⟩ | rfl
    · refine hrun.tableStep.imp ?_
      rintro (rfl | rfl)
      · exact .inl (executes_of_wrReg ha hdec)
      · exact .inr (.inl (executes_of_wrReg ha hdec))
    · exact .of_eq rfl
  | tick => exact .keeps (tickStep_identity _) (by rw [tickStep_frame]; rfl)
  | powerOn ha =>
    exact .resets (.inr (.inr (by simp [State.powersOn, ha])))
      (by simp [State.ledger, State.powerOnReset, State.resetBlock, Entry.empty])
  | _ => exact .of_eq rfl

/-! ## Retired numbers (rule R106) -/

/-- The number has been assigned and is no longer pending. -/
def State.retired (s : State) (k : Word) : Prop := k.toNat < s.nextSeq.toNat ∧ ¬ s.pending k

theorem not_pending_iff {s : State} {k : Word} : ¬ s.pending k ↔ ∀ e ∈ s.trk, e.valid = true → e.seq ≠ k := by
  simp [State.pending]

/-- Which numbers are pending is a matter of the entries' identities. -/
theorem pending_of_identity {s t : State} {k : Word} (hid : t.trk.map Entry.identity = s.trk.map Entry.identity) :
    t.pending k ↔ s.pending k := by
  have hview (u : State) : u.pending k ↔ ∃ e ∈ u.trk.map Entry.identity, e.valid = true ∧ e.seq = k := by
    simp [State.pending, Entry.identity]
  rw [hview, hview, hid]

/-- A packet just recorded has a number not assigned before, so no step but a restart makes a retired number pending. -/
theorem TableStep.retired {s t : State} {reset : Prop} {k : Word} (h : TableStep reset s.ledger t.ledger) (hno : ¬ reset)
    (hk : s.retired k) : t.retired k := by
  obtain ⟨hlow, hnot⟩ := hk
  cases h with
  | keeps hid hnext => exact ⟨hlow.trans_eq (congrArg BitVec.toNat hnext.symm), mt (pending_of_identity hid).mp hnot⟩
  | records j e hentries hseq hnext =>
    have htrk : t.trk = s.trk.set j e := hentries
    have hne : e.seq ≠ k := fun heq => hlow.ne (by rw [← heq, hseq]; rfl)
    refine ⟨hlow.trans_le (hnext.symm ▸ Nat.le_succ _), not_pending_iff.mpr ?_⟩
    exact htrk ▸ forall_mem_set (not_pending_iff.mp hnot) fun _ => hne
  | clears j hentries hnext =>
    have htrk : t.trk = s.trk.set j Entry.empty := hentries
    refine ⟨hlow.trans_eq (congrArg BitVec.toNat hnext.symm), not_pending_iff.mpr ?_⟩
    exact htrk ▸ forall_mem_set (not_pending_iff.mp hnot) nofun
  | resets hreset => exact absurd hreset hno

theorem run_succ {M : Host.Core} {s s' : M.State} (h : M.step s = .next s') (m : Nat) : M.run (m + 1) s = M.run m s' := by
  rw [Host.Core.run, h]

theorem step_next_of_run {M : Host.Core} {m : Nat} {s t : M.State} (h : M.run (m + 1) s = .next t) :
    ∃ s', M.step s = .next s' := by
  rw [Host.Core.run] at h
  split at h
  · exact ⟨_, ‹_›⟩
  · nomatch h
  · nomatch h

/-- A number stays retired over a run in which no step is a restart. -/
theorem run_retired {n : Nat} {s t : State} {k : Word} (hk : s.retired k)
    (hno : ∀ m u, m < n → core.run m s = .next u → ¬ u.restarts) (hrun : core.run n s = .next t) : t.retired k := by
  induction n generalizing s with
  | zero => cases hrun; exact hk
  | succ n ih =>
    obtain ⟨s', hstep⟩ := step_next_of_run (M := core) hrun
    refine ih ((step_stepTo hstep).tableStep.retired (hno 0 s n.succ_pos rfl) hk) (fun m u hm hu => ?_)
      ((run_succ (M := core) hstep n).symm.trans hrun)
    exact hno (m + 1) u (Nat.succ_lt_succ hm) ((run_succ (M := core) hstep m).trans hu)

/-! ## The window (rule R107) -/

/-- A step keeps WIN, unless the host writes it or the table is reset. -/
theorem StepTo.win {s t : State} (h : StepTo s t) (hwrite : ∀ v, ¬ s.writes .win v) : t.win = s.win ∨ t.txCount = 0 := by
  cases h with
  | @register _ g v ha =>
    left
    cases g with
    | win => exact absurd (by simp [State.writes, ha]) (hwrite v)
    | _ => rfl
  | command ha hexec =>
    rcases execWord_next hexec with ⟨i, -, hrun⟩ | rfl
    · by_cases hi : i = .srst
      · subst hi
        obtain ⟨heff⟩ := hrun
        cases heff with
        | refrain => exact .inl rfl
        | resetAll => exact .inr (by simp [State.txCount, State.resetBlock, Entry.empty])
      · exact .inl (congrArg Setup.win (hrun.setup hi))
    · exact .inl rfl
  | tick => exact .inl (by rw [tickStep_frame])
  | powerOn => exact .inr (by simp [State.txCount, State.powerOnReset, State.resetBlock, Entry.empty])
  | _ => exact .inl rfl

theorem countP_set_le {α : Type} (l : List α) (j : Nat) (x : α) (p : α → Bool) :
    (l.set j x).countP p ≤ l.countP p + (p x).toNat := by
  by_cases hj : j < l.length
  · rw [List.countP_set hj, Bool.toNat, Bool.cond_eq_ite]
    exact Nat.add_le_add_right (Nat.sub_le _ _) _
  · rw [List.set_eq_of_length_le (not_lt.mp hj)]
    exact Nat.le_add_right _ _

theorem TableStep.window {s t : State} {reset : Prop} (h : TableStep reset s.ledger t.ledger) (hwin : t.win = s.win)
    (hs : s.txCount ≤ s.win.toNat) : t.txCount ≤ t.win.toNat := by
  rw [hwin]
  cases h with
  | keeps hid =>
    have hcount (u : State) : u.txCount = (u.trk.map Entry.identity).countP (·.valid) := by
      rw [List.countP_map]; rfl
    have hid : t.trk.map Entry.identity = s.trk.map Entry.identity := hid
    rwa [hcount, hid, ← hcount]
  | records j e hentries _ _ hroom =>
    calc t.txCount = (s.trk.set j e).countP (·.valid) := congrArg (List.countP Entry.valid) hentries
      _ ≤ s.txCount + 1 := (countP_set_le s.trk j e _).trans (Nat.add_le_add_left (Bool.toNat_le _) _)
      _ ≤ s.win.toNat := hroom
  | clears j hentries =>
    calc t.txCount = (s.trk.set j Entry.empty).countP (·.valid) := congrArg (List.countP Entry.valid) hentries
      _ ≤ s.txCount := countP_set_le s.trk j Entry.empty _
      _ ≤ s.win.toNat := hs
  | resets _ hnone => exact hnone.trans_le (Nat.zero_le _)

end Sys2Proof.Machine

namespace Sys2Proof.Proofs

open Sys2Proof.Machine

/-- Settles O38: a number below NEXT_SEQ that is not pending is retired, which only a restart ends. -/
theorem retiredPacketsAreNotResurrected : Obligations.RetiredPacketsAreNotResurrected := by
  intro n s t k _ hlow hnot hno hrun
  refine (run_retired ⟨hlow, hnot⟩ (fun m u hm hu => ?_) hrun).2
  simpa [State.restarts] using hno m u hm hu

/-- Settles O39: only TX.SEND adds an entry, and only below WIN. -/
theorem windowBoundIsKept : Obligations.WindowBoundIsKept := by
  intro s t _ h hwrite hs
  have hstep := step_stepTo h
  rcases hstep.win hwrite with hwin | hnone
  · exact hstep.tableStep.window hwin hs
  · exact hnone.trans_le (Nat.zero_le _)

end Sys2Proof.Proofs
end

section
/-! SUPPORT. The transitions of TRK.state (rules R41, R94): which events make them, and with what else. -/

namespace Sys2Proof.Machine

/-- A transition of TRK.state that a command makes, with its condition and the interrupt it raises. -/
inductive Transition : Instr → State → State → Prop
  | close {s t : State} (hopen : s.trkState = .txOpen) (hclosing : t.trkState = .txClosing) (hcode : t.code = .ok)
      (hread : s.pram.readBytes (s.arg1.toNat + 8) s.arg2.toNat = some s.sentinel)
      (hrecord : ∃ e ∈ t.trk, e.valid = true ∧ e.seq = s.nextSeq ∧ e.sent = true) : Transition .txSend s t
  | finish {s t : State} (hclosing : s.trkState = .txClosing) (hdone : t.trkState = .txDone) (hcode : t.code = .ok)
      (hnone : t.txCount = 0) (hirq : t.irqStatus.getLsbD 4 = true) : Transition .txAck s t
  | fail {s t : State} (hrun : s.ticking) (hfailed : t.trkState = .txFailed) (hworn : s.trk.any s.wearsOut = true)
      (hirq : t.irqStatus.getLsbD 5 = true) : Transition .txTick s t
  | restart {i : Instr} {s t : State} (hi : i = .txRst ∨ i = .srst) (hopen : t.trkState = .txOpen) : Transition i s t

/-- TRK.state stays, or makes a transition of command i. -/
def Moves (i : Instr) (s t : State) : Prop := t.trkState = s.trkState ∨ Transition i s t

theorem execTxSend_moves (s : State) : Ensures (Moves .txSend s) (execTxSend s) := by
  simp only [execTxSend]
  cases hopen : s.prologue.trkState with
  | txFailed => exact .finish (.inl rfl)
  | txClosing => exact .finish (.inl rfl)
  | txDone => exact .finish (.inl rfl)
  | txOpen =>
    refine .ite (fun _ => .finish (.inl rfl)) fun _ => .checkRange (fun _ => ?_) (.finish (.inl rfl))
    refine .ite (fun _ => .finish (.inl rfl)) fun _ => .ite (fun _ => .finish (.inl rfl)) fun _ => .memRead fun p hread => ?_
    cases hfree : freeEntry s.prologue.trk with
    | none => nofun
    | some i =>
      obtain ⟨hi, -, -⟩ := freeEntry_eq_some.mp hfree
      refine .finish ?_
      by_cases hsent : s.isSentinel p = true
      · have hp : p = s.sentinel := beq_iff_eq.mp hsent
        refine .inr (.close hopen (if_pos hsent) rfl (hp ▸ hread) ?_)
        exact ⟨_, List.mem_set hi _, rfl, rfl, hsent⟩
      · exact .inl (if_neg hsent)

theorem execTxAck_moves (s : State) : Ensures (Moves .txAck s) (execTxAck s) := by
  refine .checkRange (fun _ => .ite (fun _ => .memRead fun d _ => ?_) fun _ => .finish (.inl rfl)) (.finish (.inl rfl))
  simp only
  cases s.prologue.trk.findIdx? (·.holds (wordBE32 d)) with
  | none => exact .finish (.inl rfl)
  | some i =>
    refine .finish ?_
    by_cases hlast : s.trkState = .txClosing ∧ (s.trk.set i Entry.empty).countP (·.valid) = 0
    · rw [retire_of_last (s := s.prologue) hlast]
      exact .inr (.finish hlast.1 rfl rfl hlast.2 (by simp [Code.hostError]))
    · rw [retire_of_not_last (s := s.prologue) hlast]
      exact .inl rfl

theorem execTxTick_moves (s : State) : Ensures (Moves .txTick s) (execTxTick s) := by
  refine .finish ?_
  rw [tickStep_prologue]
  by_cases hkeep : s.tickStep.trkState = s.trkState
  · exact .inl hkeep
  · obtain ⟨hrun, hworn⟩ := tickStep_trkState hkeep
    obtain ⟨hfailed, -, -, hirq⟩ := tickStep_of_wearsOut hrun hworn
    exact .inr (.fail hrun hfailed hworn hirq)

/-- The commands that make transitions. -/
def transitionCommands : List Instr := [.txSend, .txAck, .txTick, .txRst, .srst]

/-- Every other command leaves TRK.state. -/
theorem Effect.trkState {i : Instr} {s u : State} (h : Effect i s u) (hi : i ∉ transitionCommands) :
    u.trkState = s.trkState := by
  cases h with
  | send => exact absurd (by decide) hi
  | acknowledge => exact absurd (by decide) hi
  | tick => exact absurd (by decide) hi
  | resetSender => exact absurd (by decide) hi
  | resetAll => exact absurd (by decide) hi
  | accept => rw [drain_frame]; unfold State.store; split <;> rfl
  | pop => rw [drain_frame]
  | _ => rfl

theorem Runs.trkState {i : Instr} {s t : State} (h : Runs i s t) (hi : i ∉ transitionCommands) : t.trkState = s.trkState := by
  cases h with
  | mk heff => exact heff.trkState hi

/-- Everything a command can do to TRK.state. -/
theorem exec_moves (i : Instr) (s : State) : Ensures (Moves i s) (exec i s) := by
  cases i with
  | txSend => exact execTxSend_moves s
  | txAck => exact execTxAck_moves s
  | txTick => exact execTxTick_moves s
  | txRst => exact .finish (.inr (.restart (.inl rfl) rfl))
  | srst => exact .finish (.inr (.restart (.inr rfl) rfl))
  | _ => exact fun t h => .inl ((exec_runs _ s t h).trkState (by decide))

end Sys2Proof.Machine

namespace Sys2Proof.Proofs

open Sys2Proof.Machine

/-- Settles O37: a step that changes TRK.state is a command's transition, a tick that exhausts an entry, or rst_n. -/
theorem trkStateChangesOnlyByItsTransitions : Obligations.TrkStateChangesOnlyByItsTransitions := by
  intro s t h hchange
  cases step_stepTo h with
  | command ha hexec =>
    rcases execWord_cases _ _ with ⟨i, hdec, hi⟩ | ⟨_, -, hi⟩ <;> rw [hi] at hexec
    · have hex := executes_of_wrReg ha hdec
      rcases exec_moves i _ t hexec with hkeep | htrans
      · exact absurd hkeep hchange
      · cases htrans with
        | close hopen hclosing hcode hread hrecord => exact .inl ⟨hopen, hclosing, hex, hcode, hread, hrecord⟩
        | finish hclosing hdone hcode hnone hirq => exact .inr (.inl ⟨hclosing, hdone, hex, hcode, hnone, hirq⟩)
        | fail hrun hfailed hworn hirq => exact .inr (.inr (.inl ⟨hrun, hfailed, .inl hex, hworn, hirq⟩))
        | restart hi hopen =>
          refine .inr (.inr (.inr ⟨hopen, ?_⟩))
          rcases hi with rfl | rfl
          · exact .inl hex
          · exact .inr (.inl hex)
    · cases hexec; exact absurd rfl hchange
  | tick ha =>
    obtain ⟨hrun, hworn⟩ := tickStep_trkState hchange
    obtain ⟨hfailed, -, -, hirq⟩ := tickStep_of_wearsOut hrun hworn
    exact .inr (.inr (.inl ⟨hrun, hfailed, .inr (by rw [ha]; rfl), hworn, hirq⟩))
  | powerOn ha => exact .inr (.inr (.inr ⟨rfl, .inr (.inr (by simp [State.powersOn, ha]))⟩))
  | register => exact absurd (by rw [writeReg_frame]; rfl) hchange
  | _ => exact absurd rfl hchange

end Sys2Proof.Proofs
end

section
/-! SUPPORT. The delivery loop and the short commands of the reassembly buffer, one by one (rules R113, R115 to R118). -/

namespace Sys2Proof.Machine

/-- The delivery loop visits a chain of states, one turn apart. -/
theorem drainFrom_path (f : Nat) (s : State) :
    ∃ path : List State,
      path.length = (s.drainFrom f).2 + 1 ∧ path.head? = some s ∧ path.getLast? = some (s.drainFrom f).1 ∧
      ∀ n, n < (s.drainFrom f).2 → ∃ a b, path[n]? = some a ∧ path[n + 1]? = some b ∧ a.drainOne = some b := by
  induction f generalizing s with
  | zero => exact ⟨[s], rfl, rfl, rfl, nofun⟩
  | succ f ih =>
    cases hd : s.drainOne with
    | none => rw [drainFrom_none hd]; exact ⟨[s], rfl, rfl, rfl, nofun⟩
    | some t =>
      obtain ⟨path, hlen, hhead, hlast, hturn⟩ := ih t
      rw [drainFrom_some hd]
      refine ⟨s :: path, congrArg (· + 1) hlen, rfl, by rw [List.getLast?_cons, hlast]; rfl, fun n hn => ?_⟩
      cases n with
      | zero => exact ⟨s, t, rfl, List.head?_eq_getElem? ▸ hhead, hd⟩
      | succ n => exact hturn n (Nat.lt_of_succ_lt_succ hn)

end Sys2Proof.Machine

namespace Sys2Proof.Proofs

open Sys2Proof.Machine

/-- Settles O42: the conditions of a turn in the order in which `drainOne` asks for them. -/
theorem deliveryLoopTurn : Obligations.DeliveryLoopTurn := by
  rintro s _ _ rfl rfl
  refine ⟨fun h => if_neg h, fun hstate hvalid hseq => ?_⟩
  have hgo := And.intro hstate (And.intro hvalid hseq)
  refine ⟨fun hsent => (if_pos hgo).trans (if_pos hsent), fun hsent hfull => ?_, fun hsent hfits => ?_⟩
  · exact (if_pos hgo).trans <| (if_neg (Bool.eq_false_iff.mp hsent)).trans (if_pos hfull)
  · rw [← zeroExtend_eq_ofNat]
    exact (if_pos hgo).trans <| (if_neg (Bool.eq_false_iff.mp hsent)).trans (if_neg (not_lt.mpr hfits))

/-- Settles O43: as many turns as there are slots reach the loop's end, along the chain of the states it visits. -/
theorem drainRunsTheLoopToItsEnd : Obligations.DrainRunsTheLoopToItsEnd := fun s =>
  ⟨drain_drainOne s, drainFrom_path s.slots.length s⟩

/-- Settles O44: the delivery loop runs on the state whose DLV has lost its head. -/
theorem rxPopFollowsItsRule : Obligations.RxPopFollowsItsRule := by
  refine ⟨rfl, fun s => ⟨fun hempty => ?_, fun b rest t k hdlv hdrain => ?_⟩⟩
  · simp only [exec, execRxPop, State.prologue_dlv, hempty]
    rfl
  · have hloop : State.drain { s.prologue with dlv := rest } = (t, k) := hdrain
    simp only [exec, execRxPop, State.prologue_dlv, hdlv, hloop, zeroExtend_eq_ofNat]
    rfl

/-- Settles O45: the range check, then the FIFO's head, whose big-endian string is the only one written. -/
theorem rxAckqFollowsItsRule : Obligations.RxAckqFollowsItsRule := by
  refine ⟨rfl, fun s => ⟨checkRange_of_lt, fun hin hempty => ?_, fun seq rest hin hackq => ?_⟩⟩
  · refine (checkRange_of_le (s := s.prologue) hin).trans ?_
    simp only [State.prologue_ackq, hempty]
    rfl
  · refine ⟨s.pram.writeBytes s.arg1.toNat (bytesBE32 seq), ?_, Memory.readBytes_writeBytes _ _ (bytesBE32 seq),
      fun a ha => Memory.read?_writeBytes_outside _ _ a _ ha⟩
    refine (checkRange_of_le (s := s.prologue) hin).trans ?_
    simp only [State.prologue_ackq, hackq]
    rfl

/-- Settles O46: the slot of the number, asked whether it holds the number. -/
theorem rxQryFollowsItsRule : Obligations.RxQryFollowsItsRule := by
  refine ⟨rfl, ?_⟩
  rintro s _ rfl
  refine ⟨fun hvalid hseq => ?_, fun hnot => if_neg hnot⟩
  have hflag (b : Bool) : BitVec.ofNat 32 b.toNat = if b then 1 else 0 := by cases b <;> rfl
  rw [hflag, ← zeroExtend_eq_ofNat]
  exact if_pos ⟨hvalid, hseq⟩

/-- Settles O47: the receiver's reset after the prologue. -/
theorem rxRstFollowsItsRule : Obligations.RxRstFollowsItsRule := ⟨rfl, fun _ => rfl⟩

end Sys2Proof.Proofs
end

section
/-! SUPPORT. RX.PUT (rules R111, R112, R114): its checks in order, and everything it can end with. -/

namespace Sys2Proof.Machine

/-! ## A datagram that passes the checks -/

/-- RX.PUT reaches a datagram whose checksum matches: every check before that passes (rule R114). -/
structure State.Receives (s : State) (d : List Byte) : Prop where
  inRam  : s.arg1.toNat + s.arg2.toNat ≤ s.params.pramBytes
  room   : s.ackq.length ≠ s.params.ackqDepth
  header : 8 ≤ s.arg2.toNat
  read   : s.datagram = some d
  fits   : s.arg2.toNat - 8 ≤ s.mss.toNat
  valid  : datagramValid d = true

/-- The results once a datagram is parsed: its number and its payload length (rule R114). -/
def State.parsed (s : State) (d : List Byte) : State :=
  s.setRes (parsePacket d).seq (BitVec.ofNat 32 (s.arg2.toNat - 8)) 0

/-- A datagram with a whole header is valid when its packet is (rule R88). -/
theorem datagramValid_of_header {d : List Byte} (h : 8 ≤ d.length) : datagramValid d = (parsePacket d).isValid := by
  rw [datagramValid, decodePacket, if_neg (not_lt.mpr h)]

theorem datagram_length {s : State} {d : List Byte} (h : s.datagram = some d) : d.length = s.arg2.toNat :=
  Memory.length_readBytes h

/-- The slot a datagram's payload is inserted into, its length from ARG2 (rule R114). -/
theorem insert_payload {s : State} {d : List Byte} (h : s.datagram = some d) (x : Slot) (seq : Word) (sent : Bool) :
    x.insert seq (parsePacket d).payload sent =
      { valid := true, seq := seq, len := BitVec.ofNat 16 (s.arg2.toNat - 8), sent := sent
        data := d.drop 8 ++ x.data.drop (s.arg2.toNat - 8) } := by
  have hlen : s.arg2.toNat - 8 = (parsePacket d).payload.length := by
    rw [parsePacket, List.length_drop, datagram_length h]
  rw [hlen]
  rfl

section

variable {s : State} {d : List Byte} (hin : s.arg1.toNat + s.arg2.toNat ≤ s.params.pramBytes)
  (hroom : s.ackq.length ≠ s.params.ackqDepth) (hheader : 8 ≤ s.arg2.toNat) (hread : s.datagram = some d)

include hin hroom hheader hread

theorem exec_rxPut_of_read : exec .rxPut s = s.prologue.putDatagram d :=
  (checkRange_of_le (s := s.prologue) hin).trans <| (if_neg hroom).trans <|
    (if_neg (not_lt.mpr hheader)).trans (memRead_some (s := s.prologue) hread _)

theorem exec_rxPut_long (hlong : s.mss.toNat < s.arg2.toNat - 8) :
    exec .rxPut s = finish .framing { s.parsed d with cntFraming := s.cntFraming + 1 } :=
  (exec_rxPut_of_read hin hroom hheader hread).trans (if_pos hlong)

theorem exec_rxPut_corrupt (hfits : s.arg2.toNat - 8 ≤ s.mss.toNat) (hcorrupt : datagramValid d = false) :
    exec .rxPut s = finish .csumMismatch { s.parsed d with cntCsum := s.cntCsum + 1 } := by
  rw [datagramValid_of_header (datagram_length hread ▸ hheader)] at hcorrupt
  exact (exec_rxPut_of_read hin hroom hheader hread).trans <|
    (if_neg (not_lt.mpr hfits)).trans (if_neg (Bool.eq_false_iff.mp hcorrupt))

end

theorem exec_rxPut_of_receives {s : State} {d : List Byte} (h : s.Receives d) :
    exec .rxPut s = (s.parsed d).acceptDatagram (parsePacket d).seq (parsePacket d).payload := by
  have hvalid := h.valid
  rw [datagramValid_of_header (datagram_length h.read ▸ h.header)] at hvalid
  exact (exec_rxPut_of_read h.inRam h.room h.header h.read).trans <|
    (if_neg (not_lt.mpr h.fits)).trans (if_pos hvalid)

/-! ## The decision on a valid datagram -/

theorem ahead_iff {s : State} {seq : Word} :
    s.ahead seq = true ↔ seq = 0xFFFFFFFF ∨ (s.rabState ≠ .complete ∧ s.expSeq.toNat + s.params.rxSlots ≤ seq.toNat) :=
  decide_eq_true_iff

theorem ahead_eq_false {s : State} {seq : Word} :
    s.ahead seq = false ↔
      seq ≠ 0xFFFFFFFF ∧ (s.rabState = .complete ∨ seq.toNat < s.expSeq.toNat + s.params.rxSlots) := by
  rw [← Bool.not_eq_true, ahead_iff, not_or, not_and_or, not_not, not_le]

theorem inserts_iff {s : State} {seq : Word} :
    s.inserts seq = true ↔
      s.rabState ≠ .complete ∧ s.expSeq.toNat ≤ seq.toNat ∧ (s.slot (s.slotIndex seq)).valid = false := by
  rw [State.inserts, decide_eq_true_iff, not_lt]

theorem inserts_eq_false {s : State} {seq : Word} :
    s.inserts seq = false ↔
      s.rabState = .complete ∨ seq.toNat < s.expSeq.toNat ∨ (s.slot (s.slotIndex seq)).valid = true := by
  rw [← Bool.not_eq_true, inserts_iff, not_and_or, not_and_or, not_not, not_le, Bool.not_eq_false]

/-- The first valid datagram does not complete the transfer (rule R110). -/
theorem heard_complete_iff {s : State} : s.heard.rabState = .complete ↔ s.rabState = .complete := by
  cases h : s.rabState <;> simp [h]

@[simp] theorem heard_ahead (s : State) (seq : Word) : s.heard.ahead seq = s.ahead seq := by
  simp only [State.ahead, ne_eq, heard_complete_iff, State.heard_expSeq, State.heard_params]

@[simp] theorem heard_inserts (s : State) (seq : Word) : s.heard.inserts seq = s.inserts seq := by
  simp only [State.inserts, ne_eq, heard_complete_iff]
  rfl

/-- The acknowledgment, the insertion or the count of a duplicate, and the delivery loop (rules R112, R114). -/
def State.accepted (s : State) (seq : Word) (p : List Byte) : State × Nat := ((s.heard.pushAck seq).store seq p).drain

theorem acceptDatagram_of_ahead {s : State} {seq : Word} {p : List Byte} (h : s.ahead seq = true) :
    s.acceptDatagram seq p =
      finish .outOfRange
        { s.heard with cntRange := s.cntRange + 1, res2 := putFlags false false (s.isSentinel p) 0 } :=
  if_pos ((heard_ahead s seq).trans h)

theorem acceptDatagram_of_not_ahead {s : State} {seq : Word} {p : List Byte} (h : s.ahead seq = false) :
    s.acceptDatagram seq p =
      finish (if s.inserts seq then .ok else .duplicate)
        { (s.accepted seq p).1 with res2 := putFlags true (s.inserts seq) (s.isSentinel p) (s.accepted seq p).2 } := by
  rw [← heard_inserts]
  exact if_neg (Bool.eq_false_iff.mp ((heard_ahead s seq).trans h))

theorem store_of_inserts {s : State} {seq : Word} {p : List Byte} (h : s.inserts seq = true) :
    s.store seq p =
      { s with slots := s.slots.set (s.slotIndex seq) ((s.slot (s.slotIndex seq)).insert seq p (s.isSentinel p)) } :=
  if_pos h

theorem store_of_not_inserts {s : State} {seq : Word} {p : List Byte} (h : s.inserts seq = false) :
    s.store seq p = { s with cntDup := s.cntDup + 1 } :=
  if_neg (Bool.eq_false_iff.mp h)

/-- RES2 of RX.PUT is the sum of its flags and its count. -/
theorem putFlags_eq (acked inserted : Bool) (s : State) (p : List Byte) (k : Nat) :
    putFlags acked inserted (s.isSentinel p) k =
      BitVec.ofNat 32
        ((if acked then 1 else 0) + (if inserted then 2 else 0) + (if p = s.sentinel then 4 else 0) + 256 * k) := by
  simp only [putFlags, isSentinel_eq, decide_eq_true_eq, BitVec.ofNat_add, BitVec.ofNat_mul, apply_ite (BitVec.ofNat 32)]
  rfl

theorem accepted_of_inserts {s : State} {seq : Word} {p : List Byte} (h : s.inserts seq = true) :
    s.accepted seq p = State.drain
      { s.heard.pushAck seq with
        slots := s.slots.set (s.slotIndex seq) ((s.slot (s.slotIndex seq)).insert seq p (s.isSentinel p)) } :=
  congrArg State.drain (store_of_inserts (s := s.heard.pushAck seq) ((heard_inserts s seq).trans h))

theorem accepted_of_not_inserts {s : State} {seq : Word} {p : List Byte} (h : s.inserts seq = false) :
    s.accepted seq p = State.drain { s.heard.pushAck seq with cntDup := s.cntDup + 1 } :=
  congrArg State.drain (store_of_not_inserts (s := s.heard.pushAck seq) ((heard_inserts s seq).trans h))

/-! ## Everything RX.PUT can end with -/

/-- What the application sees of the receiver, and what decides that: the state without ACKQ, counters and everything else. -/
structure Delivery where
  params : Params
  slots : List Slot
  expSeq : Word
  rabState : RabState
  dlv : List Byte
  rxBytes : Word

def State.delivery (s : State) : Delivery := ⟨s.params, s.slots, s.expSeq, s.rabState, s.dlv, s.rxBytes⟩

/-- The codes of RX.PUT before a checksum matches. -/
def dropCodes : List Code := [.badAddr, .ackqFull, .framing, .csumMismatch]

/-- An RX.PUT from s ends in this state: a check failed, or a valid datagram was ahead, or it was acknowledged. -/
inductive PutEnds (s : State) : State → Prop
  | drops {t : State} (hnot : ∀ d, ¬ s.Receives d) (hcode : t.code ∈ dropCodes) (hdelivery : t.delivery = s.delivery)
      (hackq : t.ackq = s.ackq) : PutEnds s t
  | ahead {d : List Byte} {r2 : Word} (hrec : s.Receives d) (hahead : s.ahead (parsePacket d).seq = true) :
      PutEnds s (State.complete .outOfRange { (s.parsed d).heard with cntRange := s.cntRange + 1, res2 := r2 })
  | accepts {d : List Byte} {r2 : Word} (hrec : s.Receives d) (hahead : s.ahead (parsePacket d).seq = false) :
      PutEnds s
        (State.complete (if s.inserts (parsePacket d).seq then .ok else .duplicate)
          { ((s.parsed d).accepted (parsePacket d).seq (parsePacket d).payload).1 with res2 := r2 })

theorem execRxPut_drops {s : State} (hnot : ∀ d, ¬ s.Receives d) : Ensures (PutEnds s) (execRxPut s) := by
  have hdrop {c : Code} {t : State} (hc : c ∈ dropCodes) (hdelivery : t.delivery = s.delivery) (hackq : t.ackq = s.ackq) :
      Ensures (PutEnds s) (finish c t) := .finish (.drops hnot hc hdelivery hackq)
  refine .checkRange (fun hin => .ite (fun _ => hdrop (by decide) rfl rfl) fun hroom => ?_) (hdrop (by decide) rfl rfl)
  refine .ite (fun _ => hdrop (by decide) rfl rfl) fun hheader => .memRead fun d hread => ?_
  refine .ite (fun _ => hdrop (by decide) rfl rfl) fun hfits => .ite (fun hvalid => ?_) fun _ => hdrop (by decide) rfl rfl
  have hheader := not_lt.mp hheader
  exact absurd
    ⟨hin, hroom, hheader, hread, not_lt.mp hfits, (datagramValid_of_header (datagram_length hread ▸ hheader)).trans hvalid⟩
    (hnot d)

theorem execRxPut_ends (s : State) : Ensures (PutEnds s) (execRxPut s) := by
  by_cases hsome : ∃ d, s.Receives d
  · obtain ⟨d, hrec⟩ := hsome
    show Ensures _ (exec .rxPut s)
    rw [exec_rxPut_of_receives hrec]
    cases hahead : s.ahead (parsePacket d).seq with
    | true => rw [acceptDatagram_of_ahead (s := s.parsed d) hahead]; exact .finish (.ahead hrec hahead)
    | false => rw [acceptDatagram_of_not_ahead (s := s.parsed d) hahead]; exact .finish (.accepts hrec hahead)
  · exact execRxPut_drops (not_exists.mp hsome)

/-- An accepted datagram is acknowledged once, and RES0 stays its number (rule R114). -/
theorem accepted_ackq (s : State) (seq : Word) (p : List Byte) :
    (s.accepted seq p).1.ackq = s.ackq ++ [seq] ∧ (s.accepted seq p).1.res0 = s.res0 := by
  rw [State.accepted, drain_frame]
  unfold State.store
  split <;> exact ⟨rfl, rfl⟩

end Sys2Proof.Machine

namespace Sys2Proof.Proofs

open Sys2Proof.Machine

/-- Settles O40: each check of RX.PUT in its place, the earlier ones passed. -/
theorem rxPutDropsInCheckOrder : Obligations.RxPutDropsInCheckOrder := by
  refine fun s => ⟨checkRange_of_lt, fun hin => ⟨fun hfull => ?_, fun hroom => ⟨fun hshort => ?_, ?_⟩⟩⟩
  · exact (checkRange_of_le (s := s.prologue) hin).trans (if_pos hfull)
  · exact (checkRange_of_le (s := s.prologue) hin).trans <| (if_neg hroom).trans (if_pos hshort)
  · rintro d _ _ hheader hread rfl rfl
    refine ⟨fun hlong => exec_rxPut_long hin hroom hheader hread hlong,
      fun hfits hcorrupt => exec_rxPut_corrupt hin hroom hheader hread hfits hcorrupt, fun hfits hvalid hahead => ?_⟩
    have hflags : (if d.drop 8 = s.sentinel then 4 else 0) = putFlags false false (s.isSentinel (d.drop 8)) 0 := by
      rw [putFlags_eq]
      split <;> rfl
    rw [exec_rxPut_of_receives ⟨hin, hroom, hheader, hread, hfits, hvalid⟩, hflags]
    exact acceptDatagram_of_ahead (s := s.parsed d) (ahead_iff.mpr hahead)

/-- Settles O41: the acknowledgment, the insertion or the count of a duplicate, then the delivery loop from there. -/
theorem rxPutAcknowledgesAndInserts : Obligations.RxPutAcknowledgesAndInserts := by
  refine ⟨rfl, ?_⟩
  rintro s d _ _ _ _ hin hroom hheader hread rfl rfl hfits hvalid htop hrange rfl rfl
  have haccept := (exec_rxPut_of_receives ⟨hin, hroom, hheader, hread, hfits, hvalid⟩).trans
    (acceptDatagram_of_not_ahead (s := s.parsed d) (ahead_eq_false.mpr ⟨htop, hrange⟩))
  refine ⟨?_, ?_⟩
  · rintro hdup _ rfl
    have hins : (s.parsed d).inserts (parsePacket d).seq = false := inserts_eq_false.mpr hdup
    rw [haccept, putFlags_eq, hins, accepted_of_not_inserts hins]
    rfl
  · rintro hfree _ rfl
    have hins : (s.parsed d).inserts (parsePacket d).seq = true := inserts_iff.mpr hfree
    rw [haccept, putFlags_eq, hins, accepted_of_inserts hins, insert_payload hread, isSentinel_eq]
    rfl

/-- Settles O50: what is not acknowledged ends with another code. -/
theorem droppedDatagramsAreNotAcknowledged : Obligations.DroppedDatagramsAreNotAcknowledged := by
  intro s t h
  cases execRxPut_ends s t h with
  | drops _ hcode _ hackq =>
    refine ⟨fun _ => hackq, fun hends => ?_⟩
    rcases hends with hc | hc <;> simp [hc, dropCodes] at hcode
  | ahead => exact ⟨fun _ => rfl, by simp⟩
  | @accepts d =>
    refine ⟨fun hends => ?_, fun _ => ?_⟩
    · cases hins : s.inserts (parsePacket d).seq <;> simp [hins] at hends
    · obtain ⟨hackq, hres⟩ := accepted_ackq (s.parsed d) (parsePacket d).seq (parsePacket d).payload
      exact hackq.trans (congrArg (fun q => s.ackq ++ [q]) hres.symm)

end Sys2Proof.Proofs
end

section
/-! SUPPORT. What the delivery loop, the commands and the steps do to the receiver: the transitions of RAB.state (rule R110), and
that a datagram fed again changes nothing (rule R121). -/

namespace Sys2Proof.Machine

/-! ## One turn of the delivery loop -/

theorem drainOne_params {s t : State} (h : s.drainOne = some t) : t.params = s.params := by rw [drainOne_frame h]

theorem drainOne_expSeq {s t : State} (h : s.drainOne = some t) : t.expSeq = s.expSeq + 1 := by
  obtain ⟨-, -, -, ⟨-, rfl⟩ | ⟨-, -, rfl⟩⟩ := drainOne_some h <;> rfl

/-- A turn clears the cursor's slot and leaves the others (rule R113). -/
theorem drainOne_slot {s t : State} (h : s.drainOne = some t) (k : Nat) :
    t.slot k = if k = s.slotIndex s.expSeq then (s.slot (s.slotIndex s.expSeq)).clear else s.slot k := by
  obtain ⟨-, hvalid, -, hturn⟩ := drainOne_some h
  have hsame : t.slot k = State.slot s.consume k := by rcases hturn with ⟨-, rfl⟩ | ⟨-, -, rfl⟩ <;> rfl
  exact hsame.trans (slot_set s _ k _ (lt_of_slot_valid hvalid))

/-- The cursor does not wrap, for the last sequence number is never buffered (rules R44, R113). -/
theorem BufferInv.toNat_drainOne_expSeq {s t : State} (h : BufferInv s) (hd : s.drainOne = some t) :
    t.expSeq.toNat = s.expSeq.toNat + 1 := by
  obtain ⟨-, hvalid, hseq, -⟩ := drainOne_some hd
  have htop : s.expSeq ≠ 0xFFFFFFFF := hseq ▸ (h.placed _ (h.length ▸ lt_of_slot_valid hvalid) hvalid).notTop
  rw [drainOne_expSeq hd]
  bv_omega

theorem slot_mem {s : State} {j : Nat} (h : (s.slot j).valid = true) : s.slot j ∈ s.slots :=
  slot_eq_getElem (lt_of_slot_valid h) ▸ List.getElem_mem _

/-! ## RAB.state -/

/-- Some valid slot holds the sentinel. -/
def State.holdsSentinel (s : State) : Prop := ∃ x ∈ s.slots, x.valid = true ∧ x.sent = true

/-- The delivery loop keeps RAB.state, or takes a sentinel that was buffered and completes the transfer (rules R110, R113). -/
theorem drain_rabState (s : State) :
    s.drain.1.rabState = s.rabState ∨
      (s.rabState = .buffering ∧ s.drain.1.rabState = .complete ∧ s.drain.1.irqStatus.getLsbD 6 = true ∧
        s.holdsSentinel) := by
  have hloop := drain_induct
    (P := fun t => (t.rabState = s.rabState ∧ ∀ x ∈ t.slots, x.valid = true → x ∈ s.slots) ∨
      (s.rabState = .buffering ∧ t.rabState = .complete ∧ t.irqStatus.getLsbD 6 = true ∧ s.holdsSentinel))
    (fun a b ha hd => ?_) s (.inl ⟨rfl, fun _ hx _ => hx⟩)
  · exact hloop.imp_left And.left
  · obtain ⟨hbuffering, hvalid, -, hturn⟩ := drainOne_some hd
    rcases ha with ⟨hstate, hslots⟩ | ⟨-, hcomplete, -⟩
    · rcases hturn with ⟨hsent, rfl⟩ | ⟨-, -, rfl⟩
      · have hheld : s.holdsSentinel := ⟨_, hslots _ (slot_mem hvalid) hvalid, hvalid, hsent⟩
        exact .inr ⟨hstate ▸ hbuffering, rfl, by simp [IrqBit.mask], hheld⟩
      · exact .inl ⟨hstate, forall_mem_set hslots nofun⟩
    · rw [hbuffering] at hcomplete; nomatch hcomplete

theorem heard_cases (s : State) :
    (s.rabState = .awaiting ∧ s.heard.rabState = .buffering) ∨
      (s.rabState ≠ .awaiting ∧ s.heard.rabState = s.rabState) := by
  rw [State.heard_rabState]
  split
  · exact .inl ⟨‹_›, rfl⟩
  · exact .inr ⟨‹_›, rfl⟩

@[simp] theorem store_rabState (s : State) (seq : Word) (p : List Byte) : (s.store seq p).rabState = s.rabState := by
  unfold State.store
  split <;> rfl

/-- A sentinel held after an insertion was held before it, or is the payload inserted. -/
theorem holdsSentinel_of_store {s : State} {seq : Word} {p : List Byte} (h : (s.store seq p).holdsSentinel) :
    p = s.sentinel ∨ s.holdsSentinel := by
  obtain ⟨x, hx, hvalid, hsent⟩ := h
  cases hins : s.inserts seq with
  | false => rw [store_of_not_inserts hins] at hx; exact .inr ⟨x, hx, hvalid, hsent⟩
  | true =>
    rw [store_of_inserts hins] at hx
    rcases List.mem_or_eq_of_mem_set hx with hx | rfl
    · exact .inr ⟨x, hx, hvalid, hsent⟩
    · exact .inl (beq_iff_eq.mp hsent)

/-- An accepted datagram leaves RAB.state where the first valid one puts it, or completes the transfer (rules R110, R114). -/
theorem accepted_rabState (s : State) (seq : Word) (p : List Byte) :
    (s.accepted seq p).1.rabState = s.heard.rabState ∨
      (s.heard.rabState = .buffering ∧ (s.accepted seq p).1.rabState = .complete ∧
        (s.accepted seq p).1.irqStatus.getLsbD 6 = true ∧ (p = s.sentinel ∨ s.holdsSentinel)) := by
  have hloop := drain_rabState ((s.heard.pushAck seq).store seq p)
  rw [store_rabState] at hloop
  refine hloop.imp_right fun ⟨hbuffering, hcomplete, hirq, hheld⟩ => ⟨hbuffering, hcomplete, hirq, ?_⟩
  exact holdsSentinel_of_store (s := s.heard.pushAck seq) hheld

/-- A transition of RAB.state that a command makes, with its condition and the interrupt it raises (rule R110). -/
inductive Advance : Instr → State → State → Prop
  | hear {s t : State} {d : List Byte} (hawaiting : s.rabState = .awaiting) (hbuffering : t.rabState = .buffering)
      (hcode : t.code = .ok ∨ t.code = .duplicate ∨ t.code = .outOfRange) (hrec : s.Receives d) : Advance .rxPut s t
  | completeByPut {s t : State} {d : List Byte} (hopen : s.rabState = .awaiting ∨ s.rabState = .buffering)
      (hcomplete : t.rabState = .complete) (hcode : t.code = .ok ∨ t.code = .duplicate)
      (hirq : t.irqStatus.getLsbD 6 = true) (hrec : s.Receives d) (hsent : d.drop 8 = s.sentinel ∨ s.holdsSentinel) :
      Advance .rxPut s t
  | completeByPop {s t : State} (hbuffering : s.rabState = .buffering) (hcomplete : t.rabState = .complete)
      (hcode : t.code = .ok) (hirq : t.irqStatus.getLsbD 6 = true) (hsent : s.holdsSentinel) : Advance .rxPop s t
  | restart {i : Instr} {s t : State} (hi : i = .rxRst ∨ i = .srst) (hawaiting : t.rabState = .awaiting) : Advance i s t

/-- RAB.state stays, or makes a transition of command i. -/
def Advances (i : Instr) (s t : State) : Prop := t.rabState = s.rabState ∨ Advance i s t

theorem execRxPut_advances (s : State) : Ensures (Advances .rxPut s) (execRxPut s) := by
  intro t h
  cases execRxPut_ends s t h with
  | drops _ _ hdelivery => exact .inl (congrArg Delivery.rabState hdelivery)
  | @ahead d _ hrec =>
    rcases heard_cases s with ⟨hawaiting, hheard⟩ | ⟨-, hheard⟩
    · exact .inr (.hear hawaiting hheard (.inr (.inr rfl)) hrec)
    · exact .inl hheard
  | @accepts d r2 hrec =>
    have hcode (b : Bool) : (if b then Code.ok else .duplicate) = .ok ∨ (if b then Code.ok else .duplicate) = .duplicate :=
      ite_eq_or_eq ..
    have hclass : ∀ b : Bool, (if b then Code.ok else .duplicate).hostError = false := by decide
    rcases accepted_rabState (s.parsed d) (parsePacket d).seq (parsePacket d).payload with
      hkeep | ⟨hbuffering, hcomplete, hirq, hsent⟩
    · rcases heard_cases s with ⟨hawaiting, hheard⟩ | ⟨-, hheard⟩
      · exact .inr (.hear hawaiting (hkeep.trans hheard) ((hcode _).imp_right .inl) hrec)
      · exact .inl (hkeep.trans hheard)
    · refine .inr (.completeByPut ?_ hcomplete (hcode _) ?_ hrec hsent)
      · exact (heard_cases s).imp And.left fun ⟨_, hheard⟩ => hheard.symm.trans hbuffering
      · rw [State.complete_irqStatus, hclass]; exact hirq

theorem execRxPop_advances (s : State) : Ensures (Advances .rxPop s) (execRxPop s) := by
  simp only [execRxPop]
  cases s.prologue.dlv with
  | nil => exact .finish (.inl rfl)
  | cons b rest =>
    refine .finish ((drain_rabState { s.prologue with dlv := rest }).imp_right ?_)
    exact fun ⟨hbuffering, hcomplete, hirq, hsent⟩ => .completeByPop hbuffering hcomplete rfl hirq hsent

/-- The commands that change what the application sees of the receiver. -/
def deliveryCommands : List Instr := [.rxPut, .rxPop, .rxRst, .srst]

/-- Every other command leaves it (rule R155). -/
theorem Effect.delivery {i : Instr} {s u : State} (h : Effect i s u) (hi : i ∉ deliveryCommands) :
    u.delivery = s.delivery := by
  cases h with
  | acknowledge => rw [retire_frame]; rfl
  | tick => rw [tickStep_frame]; rfl
  | dropFraming => exact absurd (by decide) hi
  | dropCsum => exact absurd (by decide) hi
  | dropAhead => exact absurd (by decide) hi
  | accept => exact absurd (by decide) hi
  | pop => exact absurd (by decide) hi
  | resetReceiver => exact absurd (by decide) hi
  | resetAll => exact absurd (by decide) hi
  | _ => rfl

theorem Runs.delivery {i : Instr} {s t : State} (h : Runs i s t) (hi : i ∉ deliveryCommands) : t.delivery = s.delivery := by
  cases h with
  | mk heff => exact heff.delivery hi

/-- Everything a command can do to RAB.state. -/
theorem exec_advances (i : Instr) (s : State) : Ensures (Advances i s) (exec i s) := by
  cases i with
  | rxPut => exact execRxPut_advances s
  | rxPop => exact execRxPop_advances s
  | rxRst => exact .finish (.inr (.restart (.inl rfl) rfl))
  | srst => exact .finish (.inr (.restart (.inr rfl) rfl))
  | _ => exact fun t h => .inl (congrArg Delivery.rabState ((exec_runs _ s t h).delivery (by decide)))

/-! ## A datagram fed again -/

/-- A number RX.PUT would not insert: the transfer is complete, or the number is delivered or buffered (rules R112, R114). -/
def State.Settled (s : State) (seq : Word) : Prop :=
  s.rabState = .complete ∨ seq.toNat < s.expSeq.toNat ∨
    ((s.slot (s.slotIndex seq)).valid = true ∧ (s.slot (s.slotIndex seq)).seq = seq)

theorem State.Settled.inserts {s : State} {seq : Word} (h : s.Settled seq) : s.inserts seq = false :=
  inserts_eq_false.mpr (h.imp_right (Or.imp_right And.left))

/-- Two numbers of one receive range that share a slot are equal (rules R111, R119). -/
theorem SlotPlaced.seq_eq {s : State} {seq : Word} (h : SlotPlaced s (s.slotIndex seq)) (hlow : s.expSeq.toNat ≤ seq.toNat)
    (hhigh : seq.toNat < s.expSeq.toNat + s.params.rxSlots) : (s.slot (s.slotIndex seq)).seq = seq :=
  BitVec.eq_of_toNat_eq <| Nat.mod_injOn_Ico s.expSeq.toNat s.params.rxSlots
    (by simpa using ⟨h.low, h.high⟩) (by simpa using ⟨hlow, hhigh⟩) h.place

/-- A valid datagram that is not ahead is settled once it was stored or counted (rules R112, R114). -/
theorem BufferInv.store_settled {s : State} {seq : Word} {p : List Byte} (h : BufferInv s) (hlegal : s.params.legal = true)
    (hahead : s.ahead seq = false) : (s.store seq p).Settled seq := by
  obtain ⟨-, ⟨hrx, -⟩, -⟩ := s.params.legal_iff.mp hlegal
  have hj : s.slotIndex seq < s.params.rxSlots := Nat.mod_lt _ hrx
  cases hins : s.inserts seq with
  | true =>
    rw [store_of_inserts hins]
    have hnew := (slot_set s _ _ ((s.slot (s.slotIndex seq)).insert seq p (s.isSentinel p)) (h.length ▸ hj)).trans (if_pos rfl)
    exact .inr (.inr ⟨congrArg Slot.valid hnew, congrArg Slot.seq hnew⟩)
  | false =>
    rw [store_of_not_inserts hins]
    by_cases hcomplete : s.rabState = .complete
    · exact .inl hcomplete
    by_cases hlate : seq.toNat < s.expSeq.toNat
    · exact .inr (.inl hlate)
    have hvalid := ((inserts_eq_false.mp hins).resolve_left hcomplete).resolve_left hlate
    have hhigh := (ahead_eq_false.mp hahead).2.resolve_left hcomplete
    exact .inr (.inr ⟨hvalid, (h.placed _ hj hvalid).seq_eq (not_lt.mp hlate) hhigh⟩)

/-- A turn delivers a settled number or leaves it settled (rule R113). -/
theorem BufferInv.drainOne_settled {s t : State} {seq : Word} (h : BufferInv s) (hd : s.drainOne = some t)
    (hs : s.Settled seq) : t.Settled seq := by
  obtain ⟨hbuffering, hvalid, hseq, -⟩ := drainOne_some hd
  have hexp := h.toNat_drainOne_expSeq hd
  rcases hs with hcomplete | hlate | ⟨hheld, hsame⟩
  · rw [hbuffering] at hcomplete; nomatch hcomplete
  · exact .inr (.inl (by omega))
  · by_cases hcursor : s.slotIndex seq = s.slotIndex s.expSeq
    · rw [hcursor, hseq] at hsame
      exact .inr (.inl (by rw [hexp, hsame]; exact Nat.lt_succ_self _))
    · have hindex : t.slotIndex seq = s.slotIndex seq := by rw [State.slotIndex, drainOne_params hd]; rfl
      have hkeep := (drainOne_slot hd (s.slotIndex seq)).trans (if_neg hcursor)
      exact .inr (.inr (by rw [hindex, hkeep]; exact ⟨hheld, hsame⟩))

theorem ReassemblyInv.buffer_pushAck {s : State} {seq : Word} (h : ReassemblyInv s) : BufferInv (s.heard.pushAck seq) :=
  h.buffer.congr rfl fun ha => absurd ha (heard_not_awaiting s)

/-- Before the delivery loop of an RX.PUT the buffer is in order (rules R44, R114). -/
theorem ReassemblyInv.buffer_store {s : State} {seq : Word} {p : List Byte} (h : ReassemblyInv s)
    (hlegal : s.params.legal = true) (hahead : s.ahead seq = false) (hlen : p.length ≤ s.params.mssMax) :
    BufferInv ((s.heard.pushAck seq).store seq p) :=
  h.buffer_pushAck.store hlegal (heard_not_awaiting s) ((heard_ahead s seq).trans hahead) hlen

/-- What RX.PUT accepts is settled afterwards. -/
theorem ReassemblyInv.accepted_settled {s : State} {seq : Word} {p : List Byte} (h : ReassemblyInv s)
    (hlegal : s.params.legal = true) (hahead : s.ahead seq = false) (hlen : p.length ≤ s.params.mssMax) :
    (s.accepted seq p).1.Settled seq := by
  have hstored := (h.buffer_pushAck (seq := seq)).store_settled (p := p) hlegal ((heard_ahead s seq).trans hahead)
  exact (drain_induct (P := fun t => BufferInv t ∧ t.Settled seq)
    (fun _ _ ha hd => ⟨ha.1.drainOne hd, ha.1.drainOne_settled hd ha.2⟩) _ ⟨h.buffer_store hlegal hahead hlen, hstored⟩).2

/-- RX.PUT changes neither its operands nor packet RAM, so the datagram is still there. -/
theorem rxPut_datagram {s t : State} (h : exec .rxPut s = .next t) : t.setup = s.setup ∧ t.datagram = s.datagram := by
  have hrun := exec_runs .rxPut s t h
  have hsetup := hrun.setup (by decide)
  have hbase : t.arg1 = s.arg1 := congrArg Setup.arg1 hsetup
  have hlen : t.arg2 = s.arg2 := congrArg Setup.arg2 hsetup
  refine ⟨hsetup, ?_⟩
  rw [State.datagram, hbase, hlen]
  exact Memory.readBytes_congr fun k _ => hrun.read?_outside (by simp only [writtenBytes]; omega)

theorem State.Receives.congr {s t : State} {d : List Byte} (h : s.Receives d) (hsetup : t.setup = s.setup)
    (hread : t.datagram = s.datagram) (hackq : t.ackq = s.ackq) : t.Receives d := by
  simp only [State.setup, Setup.mk.injEq] at hsetup
  obtain ⟨hp, -, ha1, ha2, -, -, -, hmss, -⟩ := hsetup
  exact {
    inRam := by rw [hp, ha1, ha2]; exact h.inRam
    room := by rw [hp, hackq]; exact h.room
    header := by rw [ha2]; exact h.header
    read := hread.trans h.read
    fits := by rw [ha2, hmss]; exact h.fits
    valid := h.valid }

theorem ReassemblyInv.parsed {s : State} (h : ReassemblyInv s) (d : List Byte) : ReassemblyInv (s.parsed d) :=
  h.congr rfl fun _ => rfl

theorem State.Receives.payload_length_le {s : State} {d : List Byte} (h : s.Receives d) (hc : ConfigInv s) :
    (parsePacket d).payload.length ≤ s.params.mssMax :=
  Machine.payload_length_le (s := s) hc h.read h.fits

/-- Where an RX.PUT is repeated and the datagram passes the checks again, the first one has left AWAITING and settled its
number, unless it is ahead. -/
theorem settled_of_rxPut {s t : State} {d : List Byte} (hinv : BlockInv s) (h : exec .rxPut s = .next t)
    (hrec : t.Receives d) :
    t.rabState ≠ .awaiting ∧ (t.ahead (parsePacket d).seq = false → t.Settled (parsePacket d).seq) := by
  obtain ⟨hsetup, hread⟩ := rxPut_datagram h
  have hsame {e : List Byte} (hfirst : s.Receives e) : e = d :=
    Option.some.inj (hfirst.read.symm.trans (hread.symm.trans hrec.read))
  cases execRxPut_ends s t h with
  | drops hnot _ _ hackq => exact absurd (hrec.congr hsetup.symm hread.symm hackq.symm) (hnot d)
  | @ahead e _ hfirst hahead =>
    obtain rfl := hsame hfirst
    refine ⟨heard_not_awaiting s, fun hnot => ?_⟩
    have hahead' : s.heard.ahead (parsePacket e).seq = false := hnot
    rw [heard_ahead, hahead] at hahead'
    nomatch hahead'
  | @accepts e _ hfirst hahead =>
    obtain rfl := hsame hfirst
    refine ⟨fun hawaiting => ?_, fun _ =>
      (hinv.reassembly.parsed e).accepted_settled hinv.config.legal hahead (hfirst.payload_length_le hinv.config)⟩
    rcases accepted_rabState (s.parsed e) (parsePacket e).seq (parsePacket e).payload with hkeep | ⟨-, hcomplete, -⟩
    · exact heard_not_awaiting s (hkeep.symm.trans hawaiting)
    · exact nomatch hcomplete.symm.trans hawaiting

theorem heard_delivery {s : State} (h : s.rabState ≠ .awaiting) : s.heard.delivery = s.delivery := by
  simp only [State.delivery, State.heard_rabState, if_neg h]
  rfl

/-- A settled datagram is acknowledged and counted, and the delivery loop has nothing to do (rules R114, R121). -/
theorem ReassemblyInv.accepted_of_settled {s : State} {seq : Word} {p : List Byte} (h : ReassemblyInv s)
    (hstate : s.rabState ≠ .awaiting) (hsettled : s.Settled seq) : (s.accepted seq p).1.delivery = s.delivery := by
  have hcounted : ReassemblyInv { s.heard.pushAck seq with cntDup := s.cntDup + 1 } :=
    h.heard.congr rfl fun ha => absurd ha (heard_not_awaiting s)
  rw [accepted_of_not_inserts hsettled.inserts, drain_none hcounted.drained]
  exact heard_delivery hstate

/-- An RX.PUT repeated changes nothing the application sees, and inserts nothing (rule R121). -/
theorem rxPut_again {s t u : State} (hinv : BlockInv s) (ht : exec .rxPut s = .next t) (hu : exec .rxPut t = .next u) :
    u.delivery = t.delivery ∧ u.code ≠ .ok := by
  have hinvt : BlockInv t := (exec_runs .rxPut s t ht).blockInv hinv
  cases execRxPut_ends t u hu with
  | drops _ hcode hdelivery => exact ⟨hdelivery, fun hok => by simp [hok, dropCodes] at hcode⟩
  | ahead hrec => exact ⟨heard_delivery (settled_of_rxPut hinv ht hrec).1, nofun⟩
  | @accepts d _ hrec hahead =>
    obtain ⟨hstate, hsettled⟩ := settled_of_rxPut hinv ht hrec
    refine ⟨(hinvt.reassembly.parsed d).accepted_of_settled hstate (hsettled hahead), ?_⟩
    rw [State.complete_code, (hsettled hahead).inserts]
    nofun

end Sys2Proof.Machine

namespace Sys2Proof.Proofs

open Sys2Proof.Machine

/-- Settles O48: a step that changes RAB.state is a command's transition, or rst_n. -/
theorem rabStateChangesOnlyByItsTransitions : Obligations.RabStateChangesOnlyByItsTransitions := by
  intro s t h hchange
  cases step_stepTo h with
  | command ha hexec =>
    rcases execWord_cases _ _ with ⟨i, hdec, hi⟩ | ⟨_, -, hi⟩ <;> rw [hi] at hexec
    · have hex := executes_of_wrReg ha hdec
      rcases exec_advances i _ t hexec with hkeep | hadvance
      · exact absurd hkeep hchange
      · cases hadvance with
        | hear hawaiting hbuffering hcode hrec => exact .inl ⟨hawaiting, hbuffering, hex, hcode, _, hrec.read, hrec.valid⟩
        | completeByPut hopen hcomplete hcode hirq hrec hsent =>
          exact .inr (.inl ⟨hopen, hcomplete, hex, hcode, hirq, _, hrec.read, hrec.valid, hsent⟩)
        | completeByPop hbuffering hcomplete hcode hirq hsent =>
          exact .inr (.inr (.inl ⟨hbuffering, hcomplete, hex, hcode, hirq, hsent⟩))
        | restart hi hawaiting =>
          refine .inr (.inr (.inr ⟨hawaiting, ?_⟩))
          rcases hi with rfl | rfl
          · exact .inl hex
          · exact .inr (.inl hex)
    · cases hexec; exact absurd rfl hchange
  | tick => exact absurd (by rw [tickStep_frame]) hchange
  | powerOn ha => exact .inr (.inr (.inr ⟨rfl, .inr (.inr (by simp [State.powersOn, ha]))⟩))
  | register => exact absurd (by rw [writeReg_frame]; rfl) hchange
  | _ => exact absurd rfl hchange

/-- Settles O49: the first RX.PUT has settled the number or left it ahead, and the second one finds nothing to do. -/
theorem duplicateDatagramsDeliverOnce : Obligations.DuplicateDatagramsDeliverOnce := by
  intro s t u hinv ht hu
  obtain ⟨hdelivery, hcode⟩ := rxPut_again hinv ht hu
  simp only [State.delivery, Delivery.mk.injEq] at hdelivery
  obtain ⟨-, hslots, hexp, hstate, hdlv, hbytes⟩ := hdelivery
  exact ⟨hdlv, hslots, hexp, hstate, hbytes, hcode⟩

end Sys2Proof.Proofs
end

section
/-! SUPPORT. The stream of one transfer (rules R120, R125): what starts it, what keeps it, and how RX.POP reads it. -/

namespace Sys2Proof.Machine

variable {c : Nat → List Byte} {m : Nat} {popped : List Byte} {s t : State}

/-! ## What the stream speaks of -/

/-- The stream speaks only of what the application sees of the receiver. -/
theorem Stream.congr (h : Stream c m popped s) (heq : t.delivery = s.delivery) : Stream c m popped t := by
  simp only [State.delivery, Delivery.mk.injEq] at heq
  obtain ⟨hp, hslots, hexp, hstate, hdlv, -⟩ := heq
  have hslot : t.slot = s.slot := by funext j; simp only [State.slot, hslots]
  exact {
    bytes := by rw [hdlv, hexp]; exact h.bytes
    buffered := by rw [hp, hslot]; exact h.buffered
    cursor := by rw [hexp]; exact h.cursor
    complete := by rw [hstate, hexp]; exact h.complete }

/-- A receiver with no packet, nothing delivered and the cursor at 0 stands at the start of every stream. -/
theorem Stream.start
    (heq : (t.slots, t.expSeq, t.rabState, t.dlv) = (s.slots.map Slot.clear, 0, .awaiting, [])) : Stream c m [] t := by
  simp only [Prod.mk.injEq] at heq
  obtain ⟨hslots, hexp, hstate, hdlv⟩ := heq
  have hslot (j : Nat) : t.slot j = (s.slot j).clear := by
    rw [State.slot, hslots]
    exact List.getD_map _ Slot.empty Slot.clear
  exact {
    bytes := by rw [hdlv, hexp]; simp
    buffered := fun j _ hv => by rw [hslot] at hv; nomatch hv
    cursor := by rw [hexp]; exact Nat.zero_le _
    complete := iff_of_false (by rw [hstate]; nofun) (by rw [hexp]; exact (Nat.succ_ne_zero m).symm) }

/-- The stream in COMPLETE is all of the payloads. -/
theorem Stream.bytes_of_complete (h : Stream c m popped s)
    (hcomplete : s.rabState = .complete) : popped ++ s.dlv = ((List.range m).map c).flatten := by
  have hbytes := h.bytes
  rwa [h.complete.mp hcomplete, Nat.min_eq_right (Nat.le_succ m)] at hbytes

/-! ## The delivery loop -/

/-- A slot holds a packet of the transfer: its payload, marked as the sentinel if it is the last one. -/
def Slot.IsPacket (c : Nat → List Byte) (m : Nat) (x : Slot) : Prop :=
  x.seq.toNat ≤ m ∧ x.payload = c x.seq.toNat ∧ (x.sent = true ↔ x.seq.toNat = m)

/-- A turn buffers nothing. -/
theorem Stream.packet_drainOne (h : Stream c m popped s) (hd : s.drainOne = some t) :
    ∀ j, j < t.params.rxSlots → (t.slot j).valid = true → (t.slot j).IsPacket c m := by
  intro j hj hv
  rw [drainOne_params hd] at hj
  rw [drainOne_slot hd] at hv ⊢
  by_cases hcursor : j = s.slotIndex s.expSeq
  · rw [if_pos hcursor] at hv; nomatch hv
  · rw [if_neg hcursor] at hv ⊢; exact h.buffered j hj hv

/-- A turn that consumes the sentinel ends the stream, and any other appends the payload it stands before (rules R113, R120). -/
theorem Stream.drainOne (h : Stream c m popped s) (hbuffer : BufferInv s) (hd : s.drainOne = some t) : Stream c m popped t := by
  obtain ⟨hbuffering, hvalid, hseq, hturn⟩ := drainOne_some hd
  obtain ⟨hle, hpayload, hsentinel⟩ := h.buffered _ (hbuffer.length ▸ lt_of_slot_valid hvalid) hvalid
  rw [hseq] at hle hpayload hsentinel
  have hexp := hbuffer.toNat_drainOne_expSeq hd
  have hbuffered := h.packet_drainOne hd
  have hbytes := h.bytes
  rcases hturn with ⟨hsent, rfl⟩ | ⟨hsent, -, rfl⟩
  · have hm : s.expSeq.toNat = m := hsentinel.mp hsent
    rw [hm] at hexp hbytes
    exact {
      bytes := by rwa [hexp, Nat.min_eq_right (Nat.le_succ m), ← Nat.min_self m]
      buffered := hbuffered
      cursor := hexp.le
      complete := iff_of_true rfl hexp }
  · have hlt : s.expSeq.toNat < m := lt_of_le_of_ne hle fun hm => by simp [hsentinel.mpr hm] at hsent
    rw [Nat.min_eq_left hle] at hbytes
    exact {
      bytes := by
        rw [hexp, Nat.min_eq_left hlt, List.range_succ, List.map_append, List.flatten_append, ← hbytes, ← List.append_assoc]
        simp [hpayload]
      buffered := hbuffered
      cursor := by omega
      complete := iff_of_false (by simp [hbuffering]) (by omega) }

theorem Stream.drain (h : Stream c m popped s) (hbuffer : BufferInv s) : Stream c m popped s.drain.1 :=
  (drain_induct (P := fun t => Stream c m popped t ∧ BufferInv t)
    (fun _ _ ha hd => ⟨ha.1.drainOne ha.2 hd, ha.2.drainOne hd⟩) s ⟨h, hbuffer⟩).1

/-! ## RX.PUT -/

theorem Stream.heard (h : Stream c m popped s) : Stream c m popped s.heard :=
  { h with complete := heard_complete_iff.trans h.complete }

/-- Storing packet k of the transfer keeps its stream: only the last one holds the sentinel (rules R114, R125). -/
theorem Stream.store {seq : Word} (h : Stream c m popped s) (hindex : s.slotIndex seq < s.slots.length) (hseq : seq.toNat ≤ m)
    (hlen : (c seq.toNat).length < 2 ^ 16) (hsentinel : c seq.toNat = s.sentinel ↔ seq.toNat = m) :
    Stream c m popped (s.store seq (c seq.toNat)) := by
  cases hins : s.inserts seq with
  | false => rw [store_of_not_inserts hins]; exact h.congr rfl
  | true =>
    rw [store_of_inserts hins]
    refine { h with buffered := fun j hj hv => ?_ }
    have hslot := slot_set s _ j ((s.slot (s.slotIndex seq)).insert seq (c seq.toNat) (s.isSentinel (c seq.toNat))) hindex
    by_cases hnew : j = s.slotIndex seq
    · rw [hslot, if_pos hnew]
      exact ⟨hseq, payload_insert _ _ _ _ hlen, beq_iff_eq.trans hsentinel⟩
    · rw [hslot, if_neg hnew] at hv ⊢
      exact h.buffered j hj hv

/-- Accepting packet k of the transfer keeps its stream (rule R125). -/
theorem Stream.accepted {seq : Word} (h : Stream c m popped s)
    (hinv : ReassemblyInv s) (hlegal : s.params.legal = true) (hahead : s.ahead seq = false)
    (hlen : (c seq.toNat).length ≤ s.params.mssMax) (hseq : seq.toNat ≤ m)
    (hsentinel : c seq.toNat = s.sentinel ↔ seq.toNat = m) : Stream c m popped (s.accepted seq (c seq.toNat)).1 := by
  obtain ⟨-, ⟨hrx, -⟩, -, ⟨-, hmss⟩, -, -⟩ := s.params.legal_iff.mp hlegal
  have hpush : Stream c m popped (s.heard.pushAck seq) := h.heard.congr rfl
  exact (hpush.store (hinv.length ▸ Nat.mod_lt _ hrx) hseq (by omega) hsentinel).drain (hinv.buffer_store hlegal hahead hlen)

/-- An encoded packet parses to itself (rules R87, R88). -/
theorem parsePacket_encodePacket (seq : Word) (p : List Byte) : parsePacket (encodePacket seq p) = ⟨seq, digest seq p, p⟩ := by
  show Packet.mk (wordBE32 (bytesBE32 seq)) (wordBE32 (bytesBE32 (digest seq p))) p = _
  rw [wordBE32_bytesBE32, wordBE32_bytesBE32]

/-- RX.PUT of one of the transfer's packets, or of a datagram that fails the checksum, keeps its stream (rule R125). -/
theorem Stream.rxPut (h : Stream c m popped s)
    (hinv : BlockInv s) (hm : m < 0xFFFFFFFF) (hlast : c m = s.sentinel) (hbefore : ∀ k, k < m → c k ≠ s.sentinel)
    (hfed : ∀ d, s.datagram = some d →
      datagramValid d = false ∨ ∃ k, k ≤ m ∧ d = encodePacket (BitVec.ofNat 32 k) (c k))
    (hexec : exec .rxPut s = .next t) : Stream c m popped t := by
  cases execRxPut_ends s t hexec with
  | drops _ _ hdelivery => exact h.congr hdelivery
  | ahead => exact h.heard.congr rfl
  | @accepts d _ hrec hahead =>
    obtain ⟨k, hk, hd⟩ := (hfed d hrec.read).resolve_left (by simp [hrec.valid])
    have hseq : (BitVec.ofNat 32 k).toNat = k := Nat.mod_eq_of_lt (by omega)
    have hsentinel : c k = s.sentinel ↔ k = m := by
      refine ⟨fun heq => ?_, fun heq => heq ▸ hlast⟩
      by_contra hne
      exact hbefore k (lt_of_le_of_ne hk hne) heq
    have hlen := hrec.payload_length_le hinv.config
    rw [hd, parsePacket_encodePacket] at hahead hlen ⊢
    have hstream : Stream c m popped (s.parsed d) := h.congr rfl
    have haccepted := hstream.accepted (seq := BitVec.ofNat 32 k) (hinv.reassembly.parsed d) hinv.config.legal hahead
      (by rw [hseq]; exact hlen) (by rw [hseq]; exact hk) (by rw [hseq]; exact hsentinel)
    rw [hseq] at haccepted
    exact hd ▸ haccepted.congr rfl

/-! ## RX.POP -/

/-- RX.POP hands the head of DLV to the application, and the delivery loop goes on behind it (rules R115, R125). -/
theorem Stream.rxPop {b : Byte} {rest : List Byte}
    (h : Stream c m popped s) (hinv : BlockInv s) (hdlv : s.dlv = b :: rest) (hexec : exec .rxPop s = .next t) :
    t.res0 = BitVec.ofNat 32 b.toNat ∧ Stream c m (popped ++ [b]) t := by
  have hrule := (Proofs.rxPopFollowsItsRule.2 s).2 b rest _ _ hdlv rfl
  rw [hexec] at hrule
  cases hrule
  have hbuffer : BufferInv { s.ends s.code 0 0 0 with dlv := rest } := hinv.reassembly.buffer.congr rfl fun ha => by
    obtain ⟨-, -, hempty, -⟩ := hinv.reassembly.awaiting ha
    rw [hdlv] at hempty
    nomatch hempty
  have hstream : Stream c m (popped ++ [b]) { s.ends s.code 0 0 0 with dlv := rest } :=
    { h with bytes := by rw [List.append_assoc, List.singleton_append, ← hdlv]; exact h.bytes }
  exact ⟨rfl, (hstream.drain hbuffer).congr rfl⟩

/-! ## Steps -/

theorem agenda_of_nextCmdWord {w : Word} (h : s.nextCmdWord = some w) : ∃ rest, s.agenda = wrReg .cmd w :: rest := by
  unfold State.nextCmdWord at h
  split at h
  case h_1 r rest ha =>
    split at h
    case isTrue hr =>
      obtain ⟨hdir, haddr, hsize⟩ := hr
      cases h
      refine ⟨rest, ha.trans ?_⟩
      show _ = Event.host ⟨.write, 0x014, .word, r.wdata⟩ :: rest
      rw [← hdir, ← haddr, ← hsize]
    case isFalse => nomatch h
  all_goals nomatch h

/-- A step that executes a command runs it once the write is answered (rules R23, R78). -/
theorem exec_of_executes {i : Instr} (h : s.executes i) (hstep : step s = .next t) :
    ∃ rest, exec i { s with agenda := rest, resp := some ⟨false, 0⟩ } = .next t := by
  obtain ⟨rest, ha⟩ := agenda_of_nextCmdWord h
  have hlegal : s.params.legal = true := by
    rcases step_cases s with ⟨-, hs⟩ | ⟨hlegal, -⟩ | ⟨_, _, hlegal, -⟩
    · rw [hstep] at hs; nomatch hs
    · exact hlegal
    · exact hlegal
  have hrun := (Proofs.stepRunsTheDecodedCommand s _ rest hlegal ha).1 i (decode_encode i)
  exact ⟨rest, hrun.symm.trans hstep⟩

theorem powerOnReset_of_powersOn (h : s.powersOn) (hstep : step s = .next t) :
    ∃ rest, t = State.powerOnReset { s with agenda := rest } := by
  rcases step_cases s with ⟨-, hs⟩ | ⟨-, ha, -⟩ | ⟨e, rest, -, ha, hs⟩
  · rw [hstep] at hs; nomatch hs
  · rw [State.powersOn, ha] at h; nomatch h
  · rw [State.powersOn, ha] at h
    cases h
    rw [hstep] at hs
    cases hs
    exact ⟨rest, rfl⟩

/-- RX.RST, SRST and rst_n start the stream of a transfer (rules R118, R129, R151). -/
theorem Stream.of_restart (hstep : step s = .next t)
    (h : s.executes .rxRst ∨ s.executes .srst ∨ s.powersOn) : Stream c m [] t := by
  rcases h with h | h | h
  · obtain ⟨rest, hexec⟩ := exec_of_executes h hstep
    cases hexec
    exact .start (s := s) rfl
  · obtain ⟨rest, hexec⟩ := exec_of_executes h hstep
    cases hexec
    exact .start (s := s) rfl
  · obtain ⟨rest, rfl⟩ := powerOnReset_of_powersOn h hstep
    exact .start (s := s) rfl

/-- Every step but a command of the receiver or rst_n leaves what the application sees of the receiver (rule R155). -/
theorem StepTo.delivery (h : StepTo s t) (hcmd : ∀ i ∈ deliveryCommands, ¬ s.executes i)
    (hpower : ¬ s.powersOn) : t.delivery = s.delivery := by
  cases h with
  | register => rw [writeReg_frame]; rfl
  | command ha hexec =>
    rcases execWord_next hexec with ⟨i, hdec, hrun⟩ | rfl
    · exact hrun.delivery fun hi => hcmd i hi (executes_of_wrReg ha hdec)
    · rfl
  | tick => rw [tickStep_frame]; rfl
  | powerOn ha => exact absurd (by simp [State.powersOn, ha]) hpower
  | _ => rfl

end Sys2Proof.Machine

namespace Sys2Proof.Proofs

open Sys2Proof.Machine

/-- Settles O51: the delivery loop, the storing of one of the transfer's packets and the taking of a byte keep the stream, and no
other step touches what it speaks of. -/
theorem deliveredBytesAreThePayloadsInOrder : Obligations.DeliveredBytesAreThePayloadsInOrder := by
  intro c m hm
  refine ⟨fun s t _ hexec => ?_, fun s t popped hinv h hlast hbefore hfed => h.rxPut hinv hm hlast hbefore hfed,
    fun s t popped b rest hinv h => h.rxPop hinv, fun s t popped h hempty hexec => ?_, fun s t hstep => .of_restart hstep,
    fun s t popped h hstep hput hpop hrst hsrst hpower => ?_, fun s popped h => h.bytes_of_complete⟩
  · cases hexec
    exact .start (s := s) rfl
  · rw [(rxPopFollowsItsRule.2 s).1 hempty] at hexec
    cases hexec
    exact h.congr rfl
  · exact h.congr ((step_stepTo hstep).delivery (by simp [deliveryCommands, hput, hpop, hrst, hsrst]) hpower)

end Sys2Proof.Proofs
end

section
/-! SUPPORT. The control command NOP (rule R128). -/

namespace Sys2Proof.Machine

/-- A command that ends right after its prologue with a code that raises no CMD_ERR changes its results and STATUS.CODE only
(rules R78, R131). -/
theorem prologue_complete_of_not_hostError {c : Code} (h : c.hostError = false) (s : State) :
    s.prologue.complete c = s.ends c 0 0 0 := by
  simp only [State.complete, h, Bool.false_eq_true, if_false]
  rfl

end Sys2Proof.Machine

namespace Sys2Proof.Proofs

open Sys2Proof.Machine

/-- Settles O52: NOP is the prologue and then a code that raises no CMD_ERR. -/
theorem nopFollowsItsRule : Obligations.NopFollowsItsRule :=
  ⟨rfl, fun s => congrArg Host.Outcome.next (prologue_complete_of_not_hostError rfl s)⟩

end Sys2Proof.Proofs
end

section
/-! SUPPORT. The sticky interrupt bits: what each effect and each step does to IRQ_STATUS (rule R141). -/

namespace Sys2Proof.Machine

variable {k : Nat}

/-- Retiring an entry raises SLOT_FREE and perhaps TX_DONE, and clears no bit of IRQ_STATUS (rule R98). -/
theorem retire_irq (s : State) (i : Nat) (hk : s.irqStatus.getLsbD k = true) : (s.retire i).irqStatus.getLsbD k = true := by
  by_cases hlast : s.trkState = .txClosing ∧ (s.trk.set i Entry.empty).countP (·.valid) = 0
  · rw [retire_of_last hlast]; simp [hk]
  · rw [retire_of_not_last hlast]; simp [hk]

@[simp] theorem store_irqStatus (s : State) (seq : Word) (p : List Byte) : (s.store seq p).irqStatus = s.irqStatus := by
  unfold State.store
  split <;> rfl

/-- Finishing a command raises CMD_ERR at most (rule R131). -/
theorem complete_irq (c : Code) (s : State) (hk : s.irqStatus.getLsbD k = true) :
    (s.complete c).irqStatus.getLsbD k = true := by
  rw [State.complete_irqStatus]
  split <;> simp [hk]

/-- No effect of a command but that of SRST clears a bit. -/
theorem Effect.irq {i : Instr} {s u : State} (h : Effect i s u) (hi : i ≠ .srst) (hk : s.irqStatus.getLsbD k = true) :
    u.irqStatus.getLsbD k = true := by
  cases h with
  | acknowledge => exact retire_irq s _ hk
  | tick => exact tickStep_irq s k hk
  | accept => exact drain_irq _ k (by simp [hk])
  | pop => exact drain_irq _ k hk
  | resetAll => exact absurd rfl hi
  | _ => exact hk

theorem Runs.irq {i : Instr} {s t : State} (h : Runs i s t) (hi : i ≠ .srst) (hk : s.irqStatus.getLsbD k = true) :
    t.irqStatus.getLsbD k = true := by
  cases h with
  | mk heff => exact complete_irq _ _ (heff.irq hi hk)

/-- A register write clears only the bits of IRQ_STATUS whose 1 it writes there (rules R49, R56). -/
theorem writeReg_irq {s : State} {g : Reg} {v : Word} (hclear : (s.writeReg g v).irqStatus.getLsbD k = false)
    (hk : s.irqStatus.getLsbD k = true) : g = .irqStatus ∧ v.getLsbD k = true := by
  cases g with
  | irqStatus =>
    have hlt : k < 8 := BitVec.lt_of_getLsbD hk
    refine ⟨rfl, ?_⟩
    simpa [State.writeReg, hk, hlt] using hclear
  | _ => exact absurd hclear (ne_false_of_eq_true hk)

/-- Everything a step that clears a bit of IRQ_STATUS can be. -/
theorem StepTo.irq {s t : State} (h : StepTo s t) (hk : s.irqStatus.getLsbD k = true)
    (hclear : t.irqStatus.getLsbD k = false) :
    s.executes .srst ∨ s.powersOn ∨ ∃ v, s.writes .irqStatus v ∧ v.getLsbD k = true := by
  have hkeep (h : t.irqStatus.getLsbD k = true) {p : Prop} : p := absurd hclear (ne_false_of_eq_true h)
  cases h with
  | @register _ _ v ha =>
    obtain ⟨rfl, hv⟩ := writeReg_irq hclear hk
    exact .inr (.inr ⟨v, by simp [State.writes, ha], hv⟩)
  | command ha hexec =>
    rcases execWord_next hexec with ⟨i, hdec, hrun⟩ | rfl
    · by_cases hi : i = .srst
      · exact .inl (executes_of_wrReg ha (hi ▸ hdec))
      · exact hkeep (hrun.irq hi hk)
    · exact hkeep (complete_irq .illegalCmd _ hk)
  | tick => exact hkeep (tickStep_irq _ k hk)
  | powerOn ha => exact .inr (.inl (by simp [State.powersOn, ha]))
  | _ => exact hkeep hk

end Sys2Proof.Machine

namespace Sys2Proof.Proofs

open Sys2Proof.Machine

/-- Settles O17: every other kind of step only raises bits. -/
theorem irqBitsAreSticky : Obligations.IrqBitsAreSticky := fun _ _ _ h => (step_stepTo h).irq

end Sys2Proof.Proofs
end

section
/-! SUPPORT. How a command can finish: which codes it has, and that a refusal has no other effect (rules R131, R132, R136). -/

namespace Sys2Proof.Machine

/-- The "produced by" column of rule R132. -/
def Code.producers (c : Code) : List Instr :=
  match c with
  | .ok => [.ckCrc, .ckEnc, .ckDec, .ckVfy, .txSend, .txAck, .txTick, .txRetx, .txQry, .txRst, .rxPut, .rxPop, .rxAckq, .rxQry,
      .rxRst, .nop, .srst]
  | .empty => [.txRetx, .rxPop, .rxAckq]
  | .windowFull => [.txSend]
  | .framing => [.ckDec, .ckVfy, .txAck, .rxPut]
  | .csumMismatch => [.ckVfy, .rxPut]
  | .duplicate => [.rxPut]
  | .outOfRange => [.rxPut]
  | .staleAck => [.txAck]
  | .ackqFull => [.rxPut]
  | .txClosed => [.txSend]
  | .txFailed => [.txSend]
  | .seqExhausted => [.txSend]
  | .badAddr => [.ckCrc, .ckEnc, .ckDec, .ckVfy, .txSend, .txAck, .rxPut, .rxAckq]
  | .badLen => [.ckEnc, .txSend]
  | .illegalCmd => []

theorem mem_producers_ok (i : Instr) : i ∈ Code.ok.producers := by
  cases i <;> decide

/-- The codes of RX.PUT that leave a trace beside the results: a counter, and for a datagram acknowledged again ACKQ (rule R114). -/
def receiveCodes : List Code := [.framing, .csumMismatch, .duplicate, .outOfRange]

/-- How command i can end from s: with a code that rule R132 lists it for, and, unless it ends with OK or is an RX.PUT that
counts the datagram, with no effect but results, code and CMD_ERR. -/
inductive Finishes (i : Instr) (s : State) : State → Prop
  | hostError {c : Code} (hi : i ∈ c.producers) (hc : c.hostError = true) : Finishes i s (s.hostError c)
  | refuses {c : Code} {r0 r1 r2 : Word} (hi : i ∈ c.producers) (hc : c.hostError = false) : Finishes i s (s.ends c r0 r1 r2)
  | succeeds {t : State} (hc : t.code = .ok) : Finishes i s t
  | receives {t : State} (hi : i = .rxPut) (hc : t.code ∈ receiveCodes) : Finishes i s t

theorem Ensures.fault {P : State → Prop} (f : Fault) : Ensures P (.fault f) := fun _ h => nomatch h

theorem prologue_complete_of_hostError {c : Code} (h : c.hostError = true) (s : State) : s.prologue.complete c = s.hostError c := by
  simp only [State.complete, h, if_true]
  rfl

theorem setRes_complete_of_not_hostError {c : Code} (h : c.hostError = false) (s : State) (r0 r1 r2 : Word) :
    (s.setRes r0 r1 r2).complete c = s.ends c r0 r1 r2 := by
  simp only [State.complete, h, Bool.false_eq_true, if_false]
  rfl

namespace Finishes

variable {i : Instr} {s t : State}

theorem fail {c : Code} (hi : i ∈ c.producers := by decide) (hc : c.hostError = true := by rfl) :
    Ensures (Finishes i s) (finish c s.prologue) :=
  .finish (prologue_complete_of_hostError hc s ▸ .hostError hi hc)

theorem refuse {c : Code} {r0 r1 r2 : Word} (hi : i ∈ c.producers := by decide) (hc : c.hostError = false := by rfl) :
    Ensures (Finishes i s) (finish c (s.setRes r0 r1 r2)) :=
  .finish (setRes_complete_of_not_hostError hc s r0 r1 r2 ▸ .refuses hi hc)

theorem ok : Ensures (Finishes i s) (finish .ok t) := .finish (.succeeds rfl)

theorem receive {c : Code} (hc : c ∈ receiveCodes := by decide) : Ensures (Finishes .rxPut s) (finish c t) :=
  .finish (.receives rfl hc)

/-- A command ends with a code it is listed for. -/
theorem mem_producers (h : Finishes i s t) : i ∈ t.code.producers := by
  cases h with
  | hostError hi => exact hi
  | refuses hi => exact hi
  | succeeds hc => exact hc ▸ mem_producers_ok i
  | receives hi hc =>
    have hlisted : ∀ c ∈ receiveCodes, Instr.rxPut ∈ c.producers := by decide
    exact hi ▸ hlisted _ hc

/-- A command that ends with a class H code has done nothing else. -/
theorem eq_hostError (h : Finishes i s t) (hcode : t.code.hostError = true) : t = s.hostError t.code := by
  cases h with
  | hostError => rfl
  | refuses _ hc => exact absurd hcode (ne_true_of_eq_false hc)
  | succeeds hc => rw [hc] at hcode; nomatch hcode
  | receives _ hc =>
    have hclass : ∀ c ∈ receiveCodes, c.hostError = false := by decide
    exact absurd hcode (ne_true_of_eq_false (hclass _ hc))

/-- A command that ends with another code, neither OK nor one RX.PUT counts a datagram with, only reports. -/
theorem eq_ends (h : Finishes i s t) (hcode : t.code.hostError = false) (hok : t.code ≠ .ok)
    (hput : t.code ∈ receiveCodes → i ≠ .rxPut) : t = s.ends t.code t.res0 t.res1 t.res2 := by
  cases h with
  | hostError _ hc => exact absurd hc (ne_true_of_eq_false hcode)
  | refuses => rfl
  | succeeds hc => exact absurd hc hok
  | receives hi hc => exact absurd hi (hput hc)

end Finishes

/-! ## Each command -/

theorem execCkCrc_finishes (s : State) : Ensures (Finishes .ckCrc s) (execCkCrc s) :=
  .checkRange (fun _ => .memRead fun _ _ => Finishes.ok) Finishes.fail

theorem execCkEnc_finishes (s : State) : Ensures (Finishes .ckEnc s) (execCkEnc s) :=
  .ite (fun _ => Finishes.fail) fun _ => .checkRange (fun _ => .memRead fun _ _ => Finishes.ok) Finishes.fail

theorem execCkDec_finishes (s : State) : Ensures (Finishes .ckDec s) (execCkDec s) :=
  .checkRange (fun _ => .ite (fun _ => Finishes.refuse) fun _ => .memRead fun _ _ => Finishes.ok) Finishes.fail

theorem execCkVfy_finishes (s : State) : Ensures (Finishes .ckVfy s) (execCkVfy s) :=
  .checkRange
    (fun _ => .ite (fun _ => Finishes.refuse) fun _ =>
      .memRead fun _ _ => .ite (fun _ => Finishes.ok) fun _ => Finishes.refuse)
    Finishes.fail

theorem execTxSend_finishes (s : State) : Ensures (Finishes .txSend s) (execTxSend s) := by
  simp only [execTxSend]
  cases s.prologue.trkState with
  | txFailed => exact Finishes.refuse
  | txClosing => exact Finishes.refuse
  | txDone => exact Finishes.refuse
  | txOpen =>
    refine .ite (fun _ => Finishes.fail) fun _ => .checkRange (fun _ => ?_) Finishes.fail
    refine .ite (fun _ => Finishes.refuse) fun _ => .ite (fun _ => Finishes.refuse) fun _ => .memRead fun p _ => ?_
    cases freeEntry s.prologue.trk with
    | none => exact .fault _
    | some i => exact Finishes.ok

theorem execTxAck_finishes (s : State) : Ensures (Finishes .txAck s) (execTxAck s) := by
  refine .checkRange (fun _ => .ite (fun _ => .memRead fun d _ => ?_) fun _ => Finishes.refuse) Finishes.fail
  simp only
  cases s.prologue.trk.findIdx? (·.holds (wordBE32 d)) with
  | some i => exact Finishes.ok
  | none => exact Finishes.refuse

theorem execTxRetx_finishes (s : State) : Ensures (Finishes .txRetx s) (execTxRetx s) := by
  simp only [execTxRetx]
  split
  · exact Finishes.refuse
  · split
    · exact Finishes.refuse
    · exact Finishes.ok

theorem execTxQry_finishes (s : State) : Ensures (Finishes .txQry s) (execTxQry s) := by
  simp only [execTxQry]
  cases s.prologue.trk.find? (·.holds s.prologue.seqArg) with
  | none => exact Finishes.ok
  | some e => exact Finishes.ok

theorem acceptDatagram_finishes (s t : State) (seq : Word) (p : List Byte) :
    Ensures (Finishes .rxPut s) (t.acceptDatagram seq p) := by
  cases hahead : t.ahead seq with
  | true => rw [acceptDatagram_of_ahead hahead]; exact Finishes.receive
  | false =>
    rw [acceptDatagram_of_not_ahead hahead]
    cases t.inserts seq with
    | true => exact Finishes.ok
    | false => exact Finishes.receive

theorem execRxPut_finishes (s : State) : Ensures (Finishes .rxPut s) (execRxPut s) :=
  .checkRange
    (fun _ => .ite (fun _ => Finishes.refuse) fun _ => .ite (fun _ => Finishes.receive) fun _ =>
      .memRead fun _ _ => .ite (fun _ => Finishes.receive) fun _ =>
        .ite (fun _ => acceptDatagram_finishes _ _ _ _) fun _ => Finishes.receive)
    Finishes.fail

theorem execRxPop_finishes (s : State) : Ensures (Finishes .rxPop s) (execRxPop s) := by
  simp only [execRxPop]
  cases s.prologue.dlv with
  | nil => exact Finishes.refuse
  | cons b rest => exact Finishes.ok

theorem execRxAckq_finishes (s : State) : Ensures (Finishes .rxAckq s) (execRxAckq s) := by
  refine .checkRange (fun _ => ?_) Finishes.fail
  cases s.prologue.ackq with
  | nil => exact Finishes.refuse
  | cons seq rest => exact Finishes.ok

theorem execRxQry_finishes (s : State) : Ensures (Finishes .rxQry s) (execRxQry s) :=
  .ite (fun _ => Finishes.ok) fun _ => Finishes.ok

/-- Everything a command can end with. -/
theorem exec_finishes (i : Instr) (s : State) : Ensures (Finishes i s) (exec i s) :=
  match i with
  | .ckCrc => execCkCrc_finishes s
  | .ckEnc => execCkEnc_finishes s
  | .ckDec => execCkDec_finishes s
  | .ckVfy => execCkVfy_finishes s
  | .txSend => execTxSend_finishes s
  | .txAck => execTxAck_finishes s
  | .txTick => Finishes.ok
  | .txRetx => execTxRetx_finishes s
  | .txQry => execTxQry_finishes s
  | .txRst => Finishes.ok
  | .rxPut => execRxPut_finishes s
  | .rxPop => execRxPop_finishes s
  | .rxAckq => execRxAckq_finishes s
  | .rxQry => execRxQry_finishes s
  | .rxRst => Finishes.ok
  | .nop => Finishes.ok
  | .srst => Finishes.ok

end Sys2Proof.Machine

namespace Sys2Proof.Proofs

open Sys2Proof.Machine

/-- Settles O56: the codes named are those of a refusal, by the class of the first ones and by the command for the others. -/
theorem refusedCommandsChangeNothing : Obligations.RefusedCommandsChangeNothing := by
  intro i s t h
  have hfin := exec_finishes i s t h
  have hreports : ∀ c ∈ [Code.empty, .windowFull, .ackqFull, .txClosed, .txFailed, .seqExhausted, .staleAck],
      c.hostError = false ∧ c ≠ .ok ∧ c ∉ receiveCodes := by decide
  have hdrops : ∀ c ∈ [Code.framing, .csumMismatch], c.hostError = false ∧ c ≠ .ok := by decide
  have herrors : ∀ c ∈ [Code.badAddr, .badLen, .illegalCmd], c.hostError = true := by decide
  refine ⟨?_, fun hcode => hfin.eq_hostError (herrors _ hcode)⟩
  rintro (hcode | ⟨hcode, hi⟩)
  · obtain ⟨hclass, hok, hput⟩ := hreports _ hcode
    exact hfin.eq_ends hclass hok fun hmem => absurd hmem hput
  · obtain ⟨hclass, hok⟩ := hdrops _ hcode
    exact hfin.eq_ends hclass hok fun _ => hi

/-- Settles O57: each clause is a row of the table `Code.producers`. -/
theorem commandsEndWithTheirListedCodes : Obligations.CommandsEndWithTheirListedCodes := by
  intro i s t h
  have hmem := (exec_finishes i s t h).mem_producers
  have hrow {c : Code} (hc : t.code = c) : i ∈ c.producers := hc ▸ hmem
  have hone {c : Code} {j : Instr} (hj : c.producers = [j]) (hc : t.code = c) : i = j :=
    List.mem_singleton.mp (hj ▸ hrow hc)
  exact ⟨hrow, hone rfl, hrow, hrow, hone rfl, hone rfl, hone rfl, hone rfl, hone rfl, hone rfl, hone rfl, hrow, hrow,
    fun hc => nomatch hrow hc⟩

end Sys2Proof.Proofs
end

section
/-! SUPPORT. Which commands reach which half of the block (rules R154, R155), and which reach TIME (rule R39). -/

namespace Sys2Proof.Machine

/-! ## The receiver's half -/

/-- What the receiver keeps beside the delivery state: the acknowledgments to emit, and its counters. -/
structure Reception where
  ackq : List Word
  cntFraming : Word
  cntCsum : Word
  cntDup : Word
  cntRange : Word

def State.reception (s : State) : Reception := ⟨s.ackq, s.cntFraming, s.cntCsum, s.cntDup, s.cntRange⟩

/-- The commands that change receiver state. -/
def receiverCommands : List Instr := .rxAckq :: deliveryCommands

/-- A command that is none of these leaves ACKQ and the receiver's counters. -/
theorem Effect.reception {i : Instr} {s u : State} (h : Effect i s u) (hi : i ∉ receiverCommands) :
    u.reception = s.reception := by
  cases h with
  | acknowledge => rw [retire_frame]; rfl
  | tick => rw [tickStep_frame]; rfl
  | dropFraming => exact absurd (by decide) hi
  | dropCsum => exact absurd (by decide) hi
  | dropAhead => exact absurd (by decide) hi
  | accept => exact absurd (by decide) hi
  | pop => exact absurd (by decide) hi
  | emitAck => exact absurd (by decide) hi
  | resetReceiver => exact absurd (by decide) hi
  | resetAll => exact absurd (by decide) hi
  | _ => rfl

theorem Runs.reception {i : Instr} {s t : State} (h : Runs i s t) (hi : i ∉ receiverCommands) :
    t.reception = s.reception := by
  cases h with
  | mk heff => exact heff.reception hi

/-! ## The sender's half -/

/-- All sender state. -/
structure Sender where
  trkState : TrkState
  trk : List Entry
  nextSeq : Word
  failSeq : Word
  cntRetx : Word

def State.sender (s : State) : Sender := ⟨s.trkState, s.trk, s.nextSeq, s.failSeq, s.cntRetx⟩

/-- The commands that change sender state. -/
def senderCommands : List Instr := .txRetx :: transitionCommands

/-- Storing a datagram changes the slots and CNT_DUP at most. -/
theorem store_frame (s : State) (seq : Word) (p : List Byte) :
    s.store seq p = { s with slots := (s.store seq p).slots, cntDup := (s.store seq p).cntDup } := by
  unfold State.store
  split <;> rfl

/-- A command that is none of these leaves the sender alone; storing and delivering stay in the receiver's half. -/
theorem Effect.sender {i : Instr} {s u : State} (h : Effect i s u) (hi : i ∉ senderCommands) : u.sender = s.sender := by
  cases h with
  | send => exact absurd (by decide) hi
  | acknowledge => exact absurd (by decide) hi
  | tick => exact absurd (by decide) hi
  | takeRequest => exact absurd (by decide) hi
  | resetSender => exact absurd (by decide) hi
  | resetAll => exact absurd (by decide) hi
  | accept => rw [drain_frame, store_frame]; rfl
  | pop => rw [drain_frame]; rfl
  | _ => rfl

theorem Runs.sender {i : Instr} {s t : State} (h : Runs i s t) (hi : i ∉ senderCommands) : t.sender = s.sender := by
  cases h with
  | mk heff => exact heff.sender hi

/-! ## TIME -/

/-- TIME advances by TX.TICK and is cleared by SRST; every other command leaves it. -/
theorem Effect.time {i : Instr} {s u : State} (h : Effect i s u) (htick : i ≠ .txTick) (hsrst : i ≠ .srst) :
    u.time = s.time := by
  cases h with
  | tick => exact absurd rfl htick
  | resetAll => exact absurd rfl hsrst
  | acknowledge => rw [retire_frame]
  | accept => rw [drain_frame, store_frame]; rfl
  | pop => rw [drain_frame]
  | _ => rfl

theorem Runs.time {i : Instr} {s t : State} (h : Runs i s t) (htick : i ≠ .txTick) (hsrst : i ≠ .srst) : t.time = s.time := by
  cases h with
  | mk heff => exact heff.time htick hsrst

end Sys2Proof.Machine

namespace Sys2Proof.Proofs

open Sys2Proof.Machine

/-- Settles O55: no command of the first list is a receiver command and none of the second a sender command. -/
theorem directionsAreIndependent : Obligations.DirectionsAreIndependent := by
  intro i s t h
  have hrun := exec_runs i s t h
  refine ⟨fun hmem => ?_, fun hmem => ?_, hrun.time⟩
  · have hi : i ∉ receiverCommands := (by decide : ∀ j ∈ _, j ∉ receiverCommands) i hmem
    have hdelivery := hrun.delivery fun hd => hi (.tail _ hd)
    have hreception := hrun.reception hi
    simp only [State.delivery, Delivery.mk.injEq] at hdelivery
    simp only [State.reception, Reception.mk.injEq] at hreception
    obtain ⟨-, hslots, hexp, hstate, hdlv, hbytes⟩ := hdelivery
    obtain ⟨hackq, hcounters⟩ := hreception
    exact ⟨hstate, hslots, hexp, hdlv, hackq, hbytes, hcounters⟩
  · have hi : i ∉ senderCommands := (by decide : ∀ j ∈ _, j ∉ senderCommands) i hmem
    simpa only [State.sender, Sender.mk.injEq] using hrun.sender hi

end Sys2Proof.Proofs
end
